-- ==== Sys2Proof/Config.lean ====
section
/-! DEFINITION. The elaboration-time configuration of HSV (00_scope.md R7 to R13), its legality check, its defaults,
and the one free value of the model: what the environment drives in a cycle that no queued word covers. -/

namespace Sys2Proof

/-- The parameters of 00_scope.md section 4. A model takes the whole set as one argument. WARM_W is fixed at 16 (R12)
and so is no field. -/
structure Config where
  /-- `P_REPORT` (R7): tick events in one reporting period. -/
  pReport : Nat
  /-- `NS_PER_TICK` (R8): nanoseconds in one capture tick. OPEN in the spec. -/
  nsPerTick : Nat
  /-- `CAP_W` (R9): width of `captured_ticks`. -/
  capW : Nat
  /-- `IV_W` (R10): width of `INTERVAL_NS` and of the report value. -/
  ivW : Nat
  /-- `TICK_W` (R11): width of `TICK_CNT`. -/
  tickW : Nat
  /-- `WARMUP_PULSES` (R12): warm-up events before `ARMED` is set. -/
  warmupPulses : Nat
  deriving DecidableEq, Repr

namespace Config

/-- R13: every parameter is inside its range of R7 to R12. A configuration that is not legal is refused. -/
def legal (c : Config) : Bool :=
  decide (1 ≤ c.pReport) && decide (c.pReport ≤ 2 ^ c.tickW - 1) &&
  decide (c.nsPerTick ≤ 2 ^ c.ivW - 1) &&
  decide (1 ≤ c.capW) && decide (c.capW ≤ 32) &&
  decide (1 ≤ c.ivW) && decide (c.ivW ≤ 64) &&
  decide (1 ≤ c.tickW) && decide (c.tickW ≤ 32) &&
  decide (c.warmupPulses ≤ 2 ^ 16 - 1)

/-- The defaults of R7 and R9 to R12. DESIGN CHOICE (log 2): R8 leaves `NS_PER_TICK` OPEN; the value here is the
source's worked example 1000. Every statement is over all configurations. -/
def default : Config where
  pReport := 500
  nsPerTick := 1000
  capW := 16
  ivW := 32
  tickW := 16
  warmupPulses := 0

/-- FREE VALUE (log 4): the Cycle Input Word, as a number, that the environment drives in the `n`-th cycle for which
no word is queued. R15: the environment drives every input port before each edge; nothing says with what. -/
opaque freeCiw : Nat → Nat

end Config

end Sys2Proof
end

