-- ==== Sys2Proof/Word.lean ====
section
/-! DEFINITION. The words and port bundles of HSV: Hall codes, pattern bytes, edge vectors, selector words, the Cycle
Input Word and one cycle's inputs (30_encoding.md R70 to R78). -/

namespace Sys2Proof

/-- A pattern byte (R75) or a ROM entry (R100). -/
abbrev Byte := BitVec 8

/-- A Hall code (R73): bit 0 = line1, bit 1 = line2, bit 2 = line3. Also a ROM address (R50). -/
abbrev HallCode := BitVec 3

/-- The edge vector `E = {pe, te, we, ce}` (R77), `ce` in bit 0. -/
abbrev EdgeVector := BitVec 4

/-- The selector word `S = {rst, E[3:0]}` (R78), `rst` in bit 4. -/
abbrev Selector := BitVec 5

/-- `report_kind` (R76). -/
abbrev ReportKind := BitVec 2

/-- The Cycle Input Word (R72), `8 + CAP_W` bits: `captured_ticks` above the eight control bits. -/
abbrev Ciw (c : Config) := BitVec (c.capW + 8)

/-- One level for each of the four request lines: the inputs `correct_evt`, `wrong_evt`, `tick` and `warmup_pulse`
(R70), or the sample registers `CEV_Q`, `WEV_Q`, `TICK_Q` and `WARM_Q` that remember them (R29). -/
structure Lines where
  correct : Bool
  wrong : Bool
  tick : Bool
  warmup : Bool
  deriving DecidableEq, Repr

/-- The input ports of one cycle other than `clk` (R70). -/
structure Inputs (c : Config) where
  hall : HallCode
  lines : Lines
  rst : Bool
  captured : BitVec c.capW
  deriving DecidableEq, Repr

end Sys2Proof
end

