-- ==== Sys2Proof/Syntax.lean ====
section
/-! DEFINITION. The operations of HSV, one constructor per row of spec/opcode_table.json (30_encoding.md R78). An
operation carries the port values it reads as its operands. -/

namespace Sys2Proof

/-- The named actions a clock cycle performs (R2, R78). -/
inductive Instr where
  /-- RESET (R240). -/
  | reset
  /-- EDGE_SAMPLE (R120): `lines` are the four request inputs of the cycle. -/
  | edgeSample (lines : Lines)
  /-- PAT_UPDATE (R182): `hall` is `hall_in[2:0]`. -/
  | patUpdate (hall : HallCode)
  /-- ROM_READ (R101): `addr` is the ROM address. -/
  | romRead (addr : HallCode)
  /-- EV_TICK (R150). -/
  | evTick
  /-- EV_CORRECT (R122): `ticks` is `captured_ticks` as an unsigned number (R86). -/
  | evCorrect (ticks : Nat)
  /-- EV_WRONG (R123). -/
  | evWrong
  /-- EV_WARMUP (R185). -/
  | evWarmup
  /-- IDLE (R128). -/
  | idle
  deriving DecidableEq, Repr

end Sys2Proof
end

