-- ==== Sys2Proof/WellFormed.lean ====
section
/-! DEFINITION. Which operations some cycle of a configuration can issue: the checks on the two operands whose type
admits more values than the hardware gives them. -/

namespace Sys2Proof

/-- An operation that a cycle of configuration `c` can issue. `captured_ticks` is a `CAP_W`-bit port (R70, R86), and
ROM_READ is only ever issued at an address in {1, ..., 6} (R105; DEDUCED for this check, log 10). -/
def Instr.wellFormed (c : Config) : Instr → Bool
  | .evCorrect ticks => decide (ticks < 2 ^ c.capW)
  | .romRead addr => decide (addr ≠ 0) && decide (addr ≠ 7)
  | .reset => true
  | .edgeSample _ => true
  | .patUpdate _ => true
  | .evTick => true
  | .evWrong => true
  | .evWarmup => true
  | .idle => true

end Sys2Proof
end

