-- ==== Sys2Proof/Decode.lean ====
section
/-! DEFINITION. Decoding a cycle: the Cycle Input Word (R72), the edge vector (R77, R120), the selector word and the
operation map (R78), and, after them, the encoder. HSV has no instruction words: what is decoded is each cycle's input
vector, and no input vector is illegal (R81). -/

namespace Sys2Proof

/-! ### The Cycle Input Word (R72) -/

/-- The inputs packed in a CIW: bits 2:0 `hall_in`, 3 `correct_evt`, 4 `wrong_evt`, 5 `tick`, 6 `warmup_pulse`,
7 `rst`, and `captured_ticks` from bit 8 up (R72). -/
def Inputs.ofCiw {c : Config} (w : Ciw c) : Inputs c where
  hall := w.extractLsb' 0 3
  lines :=
    { correct := w.getLsbD 3
      wrong := w.getLsbD 4
      tick := w.getLsbD 5
      warmup := w.getLsbD 6 }
  rst := w.getLsbD 7
  captured := w.extractLsb' 8 c.capW

/-- The low eight bits of a CIW, `RPTWCHHH` (R72). -/
def Inputs.controlByte {c : Config} (inp : Inputs c) : Byte :=
  BitVec.ofBool inp.rst ++ BitVec.ofBool inp.lines.warmup ++ BitVec.ofBool inp.lines.tick ++
    BitVec.ofBool inp.lines.wrong ++ BitVec.ofBool inp.lines.correct ++ inp.hall

/-- The CIW that packs `inp` (R72). -/
def Inputs.toCiw {c : Config} (inp : Inputs c) : Ciw c :=
  inp.captured ++ inp.controlByte

/-- Why a number is no Cycle Input Word. -/
inductive DecodeError where
  /-- The number does not fit in `8 + CAP_W` bits (R72). -/
  | widerThanCiw
  deriving DecidableEq, Repr

/-- A number read as a CIW; one too wide for R72's layout is rejected by name (log 16). -/
def ciwOfNat (c : Config) (n : Nat) : Except DecodeError (Ciw c) :=
  if n < 2 ^ (c.capW + 8) then .ok (BitVec.ofNat _ n) else .error .widerThanCiw

/-! ### Hall code fallback (R181) -/

/-- R181: `subst(c) = 1` if c = 0 or c = 7, otherwise c. It stands here because ROM_READ's operand is `subst(hall_in)`. -/
def subst (h : HallCode) : HallCode :=
  if h = 0 ∨ h = 7 then 1 else h

/-! ### Edge vector and selector word (R120, R77, R78) -/

/-- R120: an event is an input at 1 whose sample is 0. -/
def risesFrom (sample level : Bool) : Bool :=
  level && !sample

/-- R77: `E = {pe, te, we, ce}`, computed as `edges(s, in)` of R120. -/
def edges (samples now : Lines) : EdgeVector :=
  BitVec.ofBool (risesFrom samples.warmup now.warmup) ++ BitVec.ofBool (risesFrom samples.tick now.tick) ++
    BitVec.ofBool (risesFrom samples.wrong now.wrong) ++ BitVec.ofBool (risesFrom samples.correct now.correct)

/-- R78: `S = {rst, E[3:0]}`. -/
def selectorWord (rst : Bool) (e : EdgeVector) : Selector :=
  BitVec.ofBool rst ++ e

/-- The selector word of a cycle; in a reset cycle E is not computed (R78). -/
def Inputs.selector {c : Config} (samples : Lines) (inp : Inputs c) : Selector :=
  if inp.rst then selectorWord true 0 else selectorWord false (edges samples inp.lines)

/-! ### The operation map (R78) -/

/-- One row of the operation map. -/
structure OpRow where
  pattern : Selector
  mask : Selector
  op : Instr
  deriving DecidableEq, Repr

/-- R78: an operation is selected when `(S & mask) = match`. -/
def OpRow.selected (row : OpRow) (s : Selector) : Bool :=
  (s &&& row.mask) == row.pattern

/-- The table of R78 (and spec/opcode_table.json), each operation with its operands from the cycle's inputs, in the
order R79 takes them. EV_CORRECT's operand is `captured_ticks` (R86); ROM_READ's is `subst(hall_in)` (R101). -/
def opRows {c : Config} (inp : Inputs c) : List OpRow :=
  [ ⟨0x10, 0x10, .reset⟩,
    ⟨0x00, 0x10, .edgeSample inp.lines⟩,
    ⟨0x04, 0x14, .evTick⟩,
    ⟨0x01, 0x11, .evCorrect inp.captured.toNat⟩,
    ⟨0x02, 0x12, .evWrong⟩,
    ⟨0x08, 0x18, .evWarmup⟩,
    ⟨0x00, 0x1F, .idle⟩,
    ⟨0x00, 0x10, .romRead (subst inp.hall)⟩,
    ⟨0x00, 0x10, .patUpdate inp.hall⟩ ]

/-- Every operation the selector word selects, in the order of R79. -/
def decode {c : Config} (s : Selector) (inp : Inputs c) : List Instr :=
  ((opRows inp).filter (·.selected s)).map (·.op)

/-- The operations of the cycle that reads the word `w` when the sample registers hold `samples`. -/
def decodeWord {c : Config} (samples : Lines) (w : Ciw c) : List Instr :=
  decode ((Inputs.ofCiw w).selector samples) (Inputs.ofCiw w)

/-! ### The encoder -/

/-- A cycle in which every input is 0. -/
def Inputs.quiet (c : Config) : Inputs c where
  hall := 0
  lines := ⟨false, false, false, false⟩
  rst := false
  captured := 0

/-- Request lines that are all 0. -/
def Lines.low : Lines := ⟨false, false, false, false⟩

/-- The inputs of a cycle that selects the operation with its operands when every sample register is 0: the lines its
row needs are 1, and every other input is 0 (R72, R78). -/
def Instr.inputs (c : Config) : Instr → Inputs c
  | .reset => { Inputs.quiet c with rst := true }
  | .edgeSample lines => { Inputs.quiet c with lines := lines }
  | .patUpdate hall => { Inputs.quiet c with hall := hall }
  | .romRead addr => { Inputs.quiet c with hall := addr }
  | .evTick => { Inputs.quiet c with lines := { Lines.low with tick := true } }
  | .evCorrect ticks =>
      { Inputs.quiet c with lines := { Lines.low with correct := true }, captured := BitVec.ofNat _ ticks }
  | .evWrong => { Inputs.quiet c with lines := { Lines.low with wrong := true } }
  | .evWarmup => { Inputs.quiet c with lines := { Lines.low with warmup := true } }
  | .idle => Inputs.quiet c

/-- The CIW of `Instr.inputs` (R72). -/
def encode (c : Config) (i : Instr) : Ciw c :=
  (i.inputs c).toCiw

/-- The operation's name in spec/opcode_table.json. -/
def Instr.mnemonic : Instr → String
  | .reset => "RESET"
  | .edgeSample _ => "EDGE_SAMPLE"
  | .patUpdate _ => "PAT_UPDATE"
  | .romRead _ => "ROM_READ"
  | .evTick => "EV_TICK"
  | .evCorrect _ => "EV_CORRECT"
  | .evWrong => "EV_WRONG"
  | .evWarmup => "EV_WARMUP"
  | .idle => "IDLE"

/-! ### The host's table words -/

/-- The request lines that, from samples of 0, give the edge vector of the selector word. -/
def linesOfSelector (s : Selector) : Lines where
  correct := s.getLsbD 0
  wrong := s.getLsbD 1
  tick := s.getLsbD 2
  warmup := s.getLsbD 3

/-- The inputs of a cycle whose selector word, from samples of 0, is `s`; `hall_in` and `captured_ticks` are 0, as the
table gives operand words no bits. -/
def inputsOfSelector (c : Config) (s : Selector) : Inputs c :=
  { Inputs.quiet c with lines := linesOfSelector s, rst := s.getLsbD 4 }

/-- The operation a selector word of the table stands for. A word selects several operations at once (R78); the answer
is the first, in the order of R79, that the edge vector selects, or else the first selected (RESET). So EDGE_SAMPLE,
ROM_READ and PAT_UPDATE, which every non-reset word selects, are never the answer. DESIGN CHOICE, log 8. -/
def decodeTableWord (_nbits w : Nat) : Option Instr :=
  if w < 32 then
    let s : Selector := BitVec.ofNat 5 w
    let rows := (opRows (inputsOfSelector Config.default s)).filter (·.selected s)
    ((rows.find? (·.mask != 0x10)).or rows.head?).map (·.op)
  else none

end Sys2Proof
end

