-- ==== Sys2Proof/Machine/State.lean ====
section
/-! DEFINITION. The state of HSV (10_state.md R20 to R31) and of its environment as plain data, the reasons a step can
stop, and the state after reset (70_reset_and_hazards.md R240). -/

namespace Sys2Proof.Machine

/-- The flag latch: `CORRECT_PEND` (R21) and `WRONG_PEND` (R22). -/
structure FlagPair where
  correct : Bool
  wrong : Bool
  deriving DecidableEq, Repr

/-- The report output registers (R31): `REP_VALID`, `REP_KIND` (encoded by R76) and `REP_VALUE`. -/
structure Report (c : Config) where
  valid : Bool
  kind : ReportKind
  value : BitVec c.ivW
  deriving DecidableEq, Repr

/-- The registers of HSV, exactly those of R20. -/
structure Regs (c : Config) where
  /-- `CORRECT_PEND`, `WRONG_PEND` (R21, R22). -/
  flags : FlagPair
  /-- `INTERVAL_NS` (R23), `IV_W` bits. -/
  intervalNs : BitVec c.ivW
  /-- `TICK_CNT` (R24), `TICK_W` bits. -/
  tickCnt : BitVec c.tickW
  /-- `ARMED` (R25). -/
  armed : Bool
  /-- `WARM_CNT` (R26), 16 bits. -/
  warmCnt : BitVec 16
  /-- `PATTERN` (R27), 8 bits. -/
  pattern : Byte
  /-- `LATCH_REQ` (R28). -/
  latchReq : Bool
  /-- `CEV_Q`, `WEV_Q`, `TICK_Q`, `WARM_Q` (R29). -/
  samples : Lines
  /-- `ACK_C` (R30). -/
  ackC : Bool
  /-- `ACK_W` (R30). -/
  ackW : Bool
  /-- `REP_VALID`, `REP_KIND`, `REP_VALUE` (R31). -/
  report : Report c
  deriving DecidableEq, Repr

/-- The combinational results one operation of a cycle hands to a later one of the same cycle. They are no registers of
HSV (R20) and hold nothing across an edge: outside a cycle both are 0. The MODEL's own, DESIGN CHOICE (log 6). -/
structure Wires where
  /-- The edge vector E that EDGE_SAMPLE computes (R77, R120). -/
  edge : EdgeVector
  /-- The entry that ROM_READ reads (R101). -/
  romData : Byte
  deriving DecidableEq, Repr

/-- The machine: HSV's registers beside its configuration (a constant, log 1) and its environment (log 3, log 4). -/
structure State where
  /-- The configuration (R7 to R13). No step changes it (R20). -/
  cfg : Config
  /-- The registers of R20. -/
  regs : Regs cfg
  /-- The Cycle Input Words the environment will drive, oldest first. -/
  pending : List (Ciw cfg)
  /-- How many free input words have been driven. -/
  freeCount : Nat
  /-- The combinational results of the cycle in progress. -/
  wires : Wires
  deriving DecidableEq, Repr

/-- HSV has no fault: no input and no state makes it trap, stop or halt (R210, R213, R223). -/
inductive Fault where
  deriving DecidableEq, Repr

/-- Why a step is refused. -/
inductive Refusal where
  /-- An operation without a meaning yet; raised by `exec` alone. Safe. -/
  | notModelled (mnemonic : String)
  /-- The configuration is outside a range of R7 to R12, so no block is built (R13, R223); raised by `step`. Safe. -/
  | illegalConfig
  deriving DecidableEq, Repr

/-- No result in flight. -/
def Wires.idle : Wires := ⟨0, 0⟩

/-- The reset values of R240 (and R21 to R31). -/
def Regs.reset (c : Config) : Regs c where
  flags := ⟨false, false⟩
  intervalNs := 0
  tickCnt := 0
  armed := decide (c.warmupPulses = 0)
  warmCnt := 0
  pattern := 0x19
  latchReq := false
  samples := ⟨false, false, false, false⟩
  ackC := false
  ackW := false
  report := ⟨false, 0, 0⟩

/-- The state right after a reset cycle of configuration `c`, with nothing queued (R242's launch premise, log 5). -/
def State.resetFor (c : Config) : State where
  cfg := c
  regs := Regs.reset c
  pending := []
  freeCount := 0
  wires := Wires.idle

/-- The state right after reset at the default configuration (log 2). -/
def State.reset : State := State.resetFor Config.default

end Sys2Proof.Machine
end

