-- ==== Sys2Proof/Machine/Ops.lean ====
section
/-! DEFINITION. The named operations over the machine's state that the meanings share: writing each register (group),
the ROM and its read port, taking a cycle's input word. HSV takes no exception and returns from none, and has no memory
to write (R217, R218, R51, R52), so there is no operation for those. -/

namespace Sys2Proof.Machine

/-- The outcome of an operation or a step. -/
abbrev Result := Host.Outcome State Fault Refusal

/-- Run `f` on the next state, if there is one. -/
def andThen (o : Result) (f : State → Result) : Result :=
  match o with
  | .next s => f s
  | .fault r => .fault r
  | .refused r => .refused r

/-! ### Writing registers -/

namespace Regs

variable {c : Config}

/-- `CORRECT_PEND` and `WRONG_PEND`, written together (R36, R56). -/
def writeFlags (r : Regs c) (f : FlagPair) : Regs c := { r with flags := f }

/-- `INTERVAL_NS`. -/
def writeInterval (r : Regs c) (v : BitVec c.ivW) : Regs c := { r with intervalNs := v }

/-- `TICK_CNT`. -/
def writeTickCnt (r : Regs c) (v : BitVec c.tickW) : Regs c := { r with tickCnt := v }

/-- `REP_VALID`, `REP_KIND` and `REP_VALUE` (R155). -/
def writeReport (r : Regs c) (p : Report c) : Regs c := { r with report := p }

/-- `ARMED` and `WARM_CNT`. -/
def writeWarmup (r : Regs c) (armed : Bool) (n : BitVec 16) : Regs c := { r with armed := armed, warmCnt := n }

/-- `PATTERN` and the latch request that goes with it (R182, R184). -/
def writePattern (r : Regs c) (b : Byte) : Regs c := { r with pattern := b, latchReq := true }

/-- The four edge samples (R120). -/
def writeSamples (r : Regs c) (l : Lines) : Regs c := { r with samples := l }

/-- `ACK_C` (R126). -/
def writeAckC (r : Regs c) (b : Bool) : Regs c := { r with ackC := b }

/-- `ACK_W` (R126). -/
def writeAckW (r : Regs c) (b : Bool) : Regs c := { r with ackW := b }

/-- The one-cycle pulses at 0: `ACK_C`, `ACK_W` (R30, R126) and the report triple (R155). -/
def clearPulses (r : Regs c) : Regs c := ((r.writeAckC false).writeAckW false).writeReport ⟨false, 0, 0⟩

end Regs

namespace State

/-- Replace the registers. -/
def setRegs (s : State) (r : Regs s.cfg) : State := { s with regs := r }

/-- Put the edge vector on its wires. -/
def setEdge (s : State) (e : EdgeVector) : State := { s with wires := { s.wires with edge := e } }

/-- Put a ROM entry on the ROM's data wires. -/
def setRomData (s : State) (b : Byte) : State := { s with wires := { s.wires with romData := b } }

end State

/-! ### The sequence ROM (R50 to R52, R100) -/

/-- The eight entries of R100, by address. Fixed when the block is built; nothing writes them (R52). -/
def romTable : Vector Byte 8 := #v[0x00, 0x19, 0x32, 0x13, 0x2C, 0x0D, 0x26, 0x00]

/-- `ROM(a)`, also written `MemRead(a, 1)`: the entry at 3-bit address `a` (R50, R100). -/
def rom (a : HallCode) : Byte := romTable[a.toNat]

/-- The expected-next-code field of a pattern byte, `e[5:3]` (R75, R104). -/
def expectedCode (e : Byte) : HallCode := e.extractLsb' 3 3

/-- The current-code field of a pattern byte, `e[2:0]` (R75, R104). -/
def currentCode (e : Byte) : HallCode := e.extractLsb' 0 3

/-- `next(c) = ROM(c)[5:3]`, the successor function of R102. -/
def nextCode (h : HallCode) : HallCode := expectedCode (rom h)

/-- A read of the ROM: its entry appears on the data wires in the same cycle, and no register changes (R55, R101). -/
def State.readRom (s : State) (a : HallCode) : State := s.setRomData (rom a)

/-! ### Taking a cycle's input word -/

/-- The CIW at the input ports in this cycle: the oldest queued word, or a free one (log 3, log 4). -/
def State.fetchWord (s : State) : Ciw s.cfg :=
  match s.pending with
  | w :: _ => w
  | [] => BitVec.ofNat _ (Config.freeCiw s.freeCount)

/-- The environment after it has driven this cycle's word. -/
def State.afterFetch (s : State) : State :=
  match s.pending with
  | _ :: ws => { s with pending := ws }
  | [] => { s with freeCount := s.freeCount + 1 }

/-- A non-reset cycle begins: the pulse registers fall unless an operation of this cycle raises them (R126, R155,
R128; log 7). -/
def State.openCycle (s : State) : State := s.setRegs s.regs.clearPulses

/-- The clock edge ends the cycle: nothing stays on the wires (R20, R43). -/
def State.closeCycle (s : State) : State := { s with wires := Wires.idle }

end Sys2Proof.Machine
end

