-- ==== Sys2Proof/Machine/Flags.lean ====
section
/-! DEFINITION. Every computation of the two flags `CORRECT_PEND` and `WRONG_PEND` (R35): the two event updates (R122,
R123) and the boundary evaluation (R151 to R154). HSV has no arithmetic flags (R35). -/

namespace Sys2Proof.Machine

/-- The flags a correct event writes, whatever they were (R122). -/
def flagsOnCorrect : FlagPair := ⟨true, false⟩

/-- The flags a wrong event writes, whatever they were (R123). -/
def flagsOnWrong : FlagPair := ⟨false, true⟩

/-- `report_kind` NONE (R76). -/
def kindNone : ReportKind := 0

/-- `report_kind` INTERVAL (R76). -/
def kindInterval : ReportKind := 1

/-- `report_kind` WRONG (R76). -/
def kindWrong : ReportKind := 2

/-- No report: the triple is 0 (R155). -/
def noReport (c : Config) : Report c := ⟨false, kindNone, 0⟩

/-- `evaluate(c0, w0, iv0)` of R151: the flags after the boundary evaluation, and the report it makes. One flag alone
is reported and cleared (R152, R153); none or both give no report and keep the flags (R154). -/
def evaluate {c : Config} (f : FlagPair) (iv : BitVec c.ivW) : FlagPair × Report c :=
  match f.correct, f.wrong with
  | true, false => (⟨false, f.wrong⟩, ⟨true, kindInterval, iv⟩)
  | false, true => (⟨f.correct, false⟩, ⟨true, kindWrong, 0⟩)
  | true, true => (f, noReport c)
  | false, false => (f, noReport c)

end Sys2Proof.Machine
end

