-- ==== Sys2Proof/Machine/Operands.lean ====
section
/-! DEFINITION. The operand forms (R86) and the interval product (R129). HSV has two operands from its inputs:
`captured_ticks`, zero-extended, and the Hall code, used unchanged. -/

namespace Sys2Proof.Machine

/-- `zext_IV_W(captured_ticks)` (R86): the operand as a `CAP_W`-bit number (log 12), zero-extended to `IV_W` bits, or
with the bits above `IV_W` left out where `CAP_W > IV_W`. -/
def capturedOperand (c : Config) (ticks : Nat) : BitVec c.ivW :=
  (BitVec.ofNat c.capW ticks).setWidth c.ivW

/-- The parameter `NS_PER_TICK` as an `IV_W`-bit factor (R8). -/
def nsPerTickOperand (c : Config) : BitVec c.ivW :=
  BitVec.ofNat c.ivW c.nsPerTick

/-- `zext_IV_W(k) *_IV_W NS_PER_TICK` (R122, R129): unsigned, modulo `2^IV_W`, with no flag and no saturation (R14). -/
def intervalProduct (c : Config) (ticks : Nat) : BitVec c.ivW :=
  capturedOperand c ticks * nsPerTickOperand c

end Sys2Proof.Machine
end

