-- ==== Sys2Proof/Machine/Classifier.lean ====
section
/-! DEFINITION. The event classifier and its edge detector (42_event_classifier.md): EDGE_SAMPLE, EV_CORRECT, EV_WRONG,
IDLE. -/

namespace Sys2Proof.Machine

/-- EDGE_SAMPLE (R120): computes the edge vector from the samples and the line levels, then records the levels. -/
def execEdgeSample (lines : Lines) (s : State) : Result :=
  .next ((s.setRegs (s.regs.writeSamples lines)).setEdge (edges s.regs.samples lines))

/-- EV_CORRECT (R122): flags (1, 0), the interval product, and the acknowledge of R126. -/
def execEvCorrect (ticks : Nat) (s : State) : Result :=
  .next (s.setRegs (((s.regs.writeFlags flagsOnCorrect).writeInterval (intervalProduct s.cfg ticks)).writeAckC true))

/-- EV_WRONG (R123): flags (0, 1) and the acknowledge of R126; `INTERVAL_NS` is left unchanged. -/
def execEvWrong (s : State) : Result :=
  .next (s.setRegs ((s.regs.writeFlags flagsOnWrong).writeAckW true))

/-- IDLE (R128): no classifier, reporter or warm-up write; acknowledges and report at 0. -/
def execIdle (s : State) : Result :=
  .next (s.setRegs s.regs.clearPulses)

end Sys2Proof.Machine
end

