-- ==== Sys2Proof/Machine/SequenceTable.lean ====
section
/-! DEFINITION. The sequence-table family (41_sequence_table.md): ROM_READ. -/

namespace Sys2Proof.Machine

/-- ROM_READ (R101): the entry at `addr` is the result of the cycle's ROM read; no register is read or written. -/
def execRomRead (addr : HallCode) (s : State) : Result :=
  .next (s.readRom addr)

end Sys2Proof.Machine
end

