-- ==== Sys2Proof/Machine/PatternPath.lean ====
section
/-! DEFINITION. The pattern path and the warm-up arming latch (44_pattern_driver.md): PAT_UPDATE, EV_WARMUP. -/

namespace Sys2Proof.Machine

/-- PAT_UPDATE (R182): issues ROM_READ at `subst(hall_in)` (R181) and loads the entry it reads; requests the latch
(R184). -/
def execPatUpdate (hall : HallCode) (s : State) : Result :=
  andThen (execRomRead (subst hall) s) fun t => .next (t.setRegs (t.regs.writePattern t.wires.romData))

/-- `warm_step(cfg, pe, a0, n0)` of R185. The incremented count is compared with `WARMUP_PULSES` as an unsigned integer
(log 17). -/
def warmStep (c : Config) (pe : Bool) (armed : Bool) (n : BitVec 16) : Bool × BitVec 16 :=
  if !pe || armed then (armed, n)
  else if (n + 1).toNat = c.warmupPulses then (true, n + 1)
  else (false, n + 1)

/-- EV_WARMUP (R185): counts one warm-up event while `ARMED = 0`, and arms at the last one. -/
def execEvWarmup (s : State) : Result :=
  let w := warmStep s.cfg true s.regs.armed s.regs.warmCnt
  .next (s.setRegs (s.regs.writeWarmup w.1 w.2))

end Sys2Proof.Machine
end

