-- ==== Sys2Proof/Machine/Reporter.lean ====
section
/-! DEFINITION. The periodic reporter (43_periodic_reporter.md): EV_TICK. -/

namespace Sys2Proof.Machine

/-- What one run of `tick_step` returns (R150): the flags, the counter and the report triple. -/
structure TickResult (c : Config) where
  flags : FlagPair
  tickCnt : BitVec c.tickW
  report : Report c
  deriving DecidableEq, Repr

/-- `tick_step(cfg, te, c0, w0, iv0, t0)` of R150. The incremented counter is compared with `P_REPORT` as an unsigned
integer (log 17). -/
def tickStep (c : Config) (te : Bool) (f : FlagPair) (iv : BitVec c.ivW) (t : BitVec c.tickW) : TickResult c :=
  if te then
    if (t + 1).toNat = c.pReport then
      ⟨(evaluate f iv).1, 0, (evaluate f iv).2⟩
    else ⟨f, t + 1, noReport c⟩
  else ⟨f, t, noReport c⟩

/-- EV_TICK (R150 to R155): counts the tick event, and on a boundary tick evaluates the flags and reports. -/
def execEvTick (s : State) : Result :=
  let t := tickStep s.cfg true s.regs.flags s.regs.intervalNs s.regs.tickCnt
  .next (s.setRegs (((s.regs.writeFlags t.flags).writeTickCnt t.tickCnt).writeReport t.report))

end Sys2Proof.Machine
end

