-- ==== Sys2Proof/Machine/Reset.lean ====
section
/-! DEFINITION. Reset (70_reset_and_hazards.md): RESET. -/

namespace Sys2Proof.Machine

/-- RESET (R240): every register to its reset value, whatever it held. -/
def execReset (s : State) : Result :=
  .next (s.setRegs (Regs.reset s.cfg))

end Sys2Proof.Machine
end

