-- ==== Sys2Proof/Machine/Dispatch.lean ====
section
/-! DEFINITION. One arm per constructor of Instr: the operation's meaning. -/

namespace Sys2Proof.Machine

/-- What one operation does to the machine (30_encoding.md R78). -/
def exec (i : Instr) (s : State) : Host.Outcome State Fault Refusal :=
  match i with
  | .reset => Sys2Proof.Machine.execReset s
  | .edgeSample lines => Sys2Proof.Machine.execEdgeSample lines s
  | .patUpdate hall => Sys2Proof.Machine.execPatUpdate hall s
  | .romRead addr => Sys2Proof.Machine.execRomRead addr s
  | .evTick => Sys2Proof.Machine.execEvTick s
  | .evCorrect ticks => Sys2Proof.Machine.execEvCorrect ticks s
  | .evWrong => Sys2Proof.Machine.execEvWrong s
  | .evWarmup => Sys2Proof.Machine.execEvWarmup s
  | .idle => Sys2Proof.Machine.execIdle s

end Sys2Proof.Machine
end

