-- ==== Sys2Proof/Machine/Cycle.lean ====
section
/-! DEFINITION. One clock cycle (30_encoding.md R79) as a run of its selected operations, each to completion, in the
order of R79: the reading of the cycle that R80 gives (DEDUCED, log 7). -/

namespace Sys2Proof.Machine

/-- Run operations one after another. -/
def runOps : List Instr → State → Result
  | [], s => .next s
  | i :: is, s => andThen (exec i s) (runOps is)

/-- The operations that the cycle issues after the edge vector is known: not EDGE_SAMPLE, which has computed it (R79,
step 1), and not ROM_READ, which only PAT_UPDATE issues (R50). -/
def issuedAfterEdges (i : Instr) : Bool :=
  match i with
  | .edgeSample _ => false
  | .romRead _ => false
  | .reset => true
  | .patUpdate _ => true
  | .evTick => true
  | .evCorrect _ => true
  | .evWrong => true
  | .evWarmup => true
  | .idle => true

/-- One cycle on the inputs `inp`. A reset cycle runs RESET and nothing else (R240). Any other first runs EDGE_SAMPLE,
which puts E on its wires, and then every operation that `S = {0, E}` selects (R78, R79). -/
def runCycle {c : Config} (inp : Inputs c) (s : State) : Result :=
  if inp.rst then runOps (decode (selectorWord true 0) inp) s
  else
    andThen (exec (.edgeSample inp.lines) s.openCycle) fun t =>
      runOps ((decode (selectorWord false t.wires.edge) inp).filter issuedAfterEdges) t

/-- One clock edge: the environment drives a word, the cycle runs, and the wires fall idle. -/
def clockEdge (s : State) : Result :=
  andThen (runCycle (Inputs.ofCiw s.fetchWord) s.afterFetch) fun t => .next t.closeCycle

/-- The inputs and samples that make the very next cycle's selector word `w`: the word is queued in the place of the
next one, and the sample of each line that must rise is 0 (DESIGN CHOICE, log 9). -/
def selectNext (s : State) (w : Nat) : State :=
  let sel : Selector := BitVec.ofNat 5 w
  let q := s.regs.samples
  let l := linesOfSelector sel
  { s with
    regs := s.regs.writeSamples
      ⟨q.correct && !l.correct, q.wrong && !l.wrong, q.tick && !l.tick, q.warmup && !l.warmup⟩
    pending := (inputsOfSelector s.cfg sel).toCiw :: s.pending.tail }

end Sys2Proof.Machine
end

