-- ==== Sys2Proof/Machine/Step.lean ====
section
/-! DEFINITION. One step of the machine: one rising edge of `clk` (R3), or the refusal of an illegal configuration
(R13). -/

namespace Sys2Proof.Machine

/-- One step. A configuration that is not legal is refused: the model has no step for it (R13, R223). -/
def step (s : State) : Host.Outcome State Fault Refusal :=
  if s.cfg.legal then clockEdge s else .refused .illegalConfig

/-- The state whose very next step runs the operations of the selector word `w` (log 9). -/
def State.withFetchWord (s : State) (_nbits w : Nat) : State :=
  selectNext s w

end Sys2Proof.Machine
end

