-- ==== Sys2Proof/Machine/Reference.lean ====
section
/-! DEFINITION. The step function of 30_encoding.md R79 as the spec writes it: every register's next value at once, from
the pre-state and the inputs. The machine runs operations one after another (Machine/Cycle.lean); that both give the
same registers is a statement of its own. -/

namespace Sys2Proof.Machine

/-- `step(cfg, s, in)` of R79, over the registers. -/
def Regs.nextByR79 {c : Config} (s : Regs c) (inp : Inputs c) : Regs c :=
  if inp.rst then Regs.reset c
  else
    let ce := inp.lines.correct && !s.samples.correct
    let we := inp.lines.wrong && !s.samples.wrong
    let te := inp.lines.tick && !s.samples.tick
    let pe := inp.lines.warmup && !s.samples.warmup
    let t := tickStep c te s.flags s.intervalNs s.tickCnt
    let iv := if ce then inp.captured.setWidth c.ivW * BitVec.ofNat c.ivW c.nsPerTick else s.intervalNs
    let flagsAfterCorrect : FlagPair := if ce then ⟨true, false⟩ else t.flags
    let flagsAfterWrong : FlagPair := if we then ⟨false, true⟩ else flagsAfterCorrect
    let w := warmStep c pe s.armed s.warmCnt
    { flags := flagsAfterWrong
      intervalNs := iv
      tickCnt := t.tickCnt
      armed := w.1
      warmCnt := w.2
      pattern := rom (subst inp.hall)
      latchReq := true
      samples := inp.lines
      ackC := ce
      ackW := we
      report := t.report }

end Sys2Proof.Machine
end

