-- ==== Sys2Proof/Machine/Trace.lean ====
section
/-! DEFINITION. The trace notation of 30_encoding.md: trace lines (R84) and their Cycle Input Words, the
pseudo-instructions and their expansions (R85), and a reader of both from characters. The notation is the spec's own and
no part of the hardware; white space and the limits on numbers are log 13. -/

namespace Sys2Proof.Machine

/-! ### Lines and pseudo-instructions -/

/-- One line of a trace, one clock cycle (R84): `RST` or the request lines it drives to 1 (`N` drives none), the
`captured_ticks` of this cycle, and the `hall_in` it sets from here on, if it sets one. -/
structure TraceLine where
  rst : Bool
  lines : Lines
  k : Nat
  h : Option HallCode
  deriving DecidableEq, Repr

/-- `N` (R84). -/
def TraceLine.n : TraceLine := ⟨false, Lines.low, 0, none⟩

/-- The inputs of a line when `hall_in` is `hall` (R84). DESIGN CHOICE, log 13: R84 and R85 do not say what a
`captured_ticks` of `2^CAP_W` or more is; the readers refuse it, and a line built without them is taken modulo
`2^CAP_W`. -/
def TraceLine.inputs (c : Config) (hall : HallCode) (l : TraceLine) : Inputs c where
  hall := hall
  lines := l.lines
  rst := l.rst
  captured := BitVec.ofNat c.capW l.k

/-- The CIWs of a trace whose `hall_in` is `hall` so far: `h=` holds until the next `h=` (R84). -/
def assembleFrom (c : Config) (hall : HallCode) : List TraceLine → List (Ciw c)
  | [] => []
  | l :: ls => (l.inputs c (l.h.getD hall)).toCiw :: assembleFrom c (l.h.getD hall) ls

/-- The CIWs of a trace; `hall_in` is 0 at its start (R84). -/
def assemble (c : Config) (ls : List TraceLine) : List (Ciw c) := assembleFrom c 0 ls

/-- The pseudo-instructions of R85. -/
inductive Pseudo where
  | evc (k : Nat)
  | evw
  | ticks (n : Nat)
  | pulses (n : Nat)
  | idle (n : Nat)
  | hall (h : HallCode)
  deriving DecidableEq, Repr

/-- A line that drives one pattern of request lines. -/
def TraceLine.strobe (l : Lines) : TraceLine := { TraceLine.n with lines := l }

/-- `n` repetitions of a block of lines. -/
def repeatLines (block : List TraceLine) : Nat → List TraceLine
  | 0 => []
  | n + 1 => block ++ repeatLines block n

/-- The expansion of R85. -/
def Pseudo.expand : Pseudo → List TraceLine
  | .evc k => [{ TraceLine.strobe { Lines.low with correct := true } with k := k }, TraceLine.n]
  | .evw => [TraceLine.strobe { Lines.low with wrong := true }, TraceLine.n]
  | .ticks n => repeatLines [TraceLine.strobe { Lines.low with tick := true }, TraceLine.n] n
  | .pulses n => repeatLines [TraceLine.strobe { Lines.low with warmup := true }, TraceLine.n] n
  | .idle n => repeatLines [TraceLine.n] n
  | .hall h => [{ TraceLine.n with h := some h }]

/-! ### Reading the notation -/

/-- Split at blanks; empty pieces may result. -/
def splitBlanks : List Char → List (List Char)
  | [] => []
  | ch :: cs =>
    if ch = ' ' ∨ ch = '\t' then [] :: splitBlanks cs
    else
      match splitBlanks cs with
      | [] => [[ch]]
      | t :: ts => (ch :: t) :: ts

/-- The words of a line, without its comment (R84: from `;` on). -/
def wordsOf (cs : List Char) : List (List Char) :=
  (splitBlanks (cs.takeWhile (· != ';'))).filter (fun t => !t.isEmpty)

/-- The value of a digit in base 10 or 16. -/
def digitValue (base : Nat) (ch : Char) : Option Nat :=
  let v :=
    if '0' ≤ ch ∧ ch ≤ '9' then ch.toNat - '0'.toNat
    else if 'a' ≤ ch ∧ ch ≤ 'f' then ch.toNat - 'a'.toNat + 10
    else if 'A' ≤ ch ∧ ch ≤ 'F' then ch.toNat - 'A'.toNat + 10
    else base
  if v < base then some v else none

/-- Digits after those already read as `acc`. -/
def digitsFrom (base : Nat) : List Char → Nat → Option Nat
  | [], acc => some acc
  | ch :: cs, acc =>
    match digitValue base ch with
    | some v => digitsFrom base cs (acc * base + v)
    | none => none

/-- `num` of R84: decimal digits, or `0x` and hexadecimal digits. -/
def readNum : List Char → Option Nat
  | '0' :: 'x' :: ch :: cs => digitsFrom 16 (ch :: cs) 0
  | ch :: cs => digitsFrom 10 (ch :: cs) 0
  | [] => none

/-- A Hall code written as `num`; one above 7, in `h=` or in `HALL h`, is read as nothing (DESIGN CHOICE, log 13). -/
def readHall (cs : List Char) : Option HallCode :=
  match readNum cs with
  | some n => if n < 8 then some (BitVec.ofNat 3 n) else none
  | none => none

/-- Take the letter off the front, if it stands there. -/
def takeLetter (ch : Char) : List Char → Bool × List Char
  | [] => (false, [])
  | x :: xs => if x = ch then (true, xs) else (false, x :: xs)

/-- `strobes` of R84: a non-empty subsequence of C W T P, in that order. -/
def readStrobes (cs : List Char) : Option Lines :=
  let c := takeLetter 'C' cs
  let w := takeLetter 'W' c.2
  let t := takeLetter 'T' w.2
  let p := takeLetter 'P' t.2
  if p.2.isEmpty && !cs.isEmpty then some ⟨c.1, w.1, t.1, p.1⟩ else none

/-- `op` of R84, as a line with no `k=` and no `h=`. -/
def readOp (cs : List Char) : Option TraceLine :=
  if cs = ['R', 'S', 'T'] then some { TraceLine.n with rst := true }
  else if cs = ['N'] then some TraceLine.n
  else (readStrobes cs).map TraceLine.strobe

/-- A number that `captured_ticks` can hold in configuration `c`; a larger one is read as nothing, in `k=` and in
`EVC k` alike. DESIGN CHOICE, log 13: R84 and R85 are silent on it. -/
def readTicks (c : Config) (cs : List Char) : Option Nat :=
  (readNum cs).bind fun k => if k < 2 ^ c.capW then some k else none

/-- The optional `k=` and then `h=` after an op (R84), `k=` by `readTicks`. -/
def readSettings (c : Config) (l : TraceLine) : List (List Char) → Option TraceLine
  | [] => some l
  | [('k' :: '=' :: n)] => (readTicks c n).map fun k => { l with k := k }
  | [('h' :: '=' :: n)] => (readHall n).map fun h => { l with h := some h }
  | [('k' :: '=' :: m), ('h' :: '=' :: n)] =>
    match readTicks c m, readHall n with
    | some k, some h => some { l with k := k, h := some h }
    | _, _ => none
  | _ => none

/-- A trace line (R84) of configuration `c`. -/
def readLine (c : Config) (cs : List Char) : Option TraceLine :=
  match wordsOf cs with
  | [] => none
  | op :: rest => (readOp op).bind (readSettings c · rest)

/-- A pseudo-instruction (R85) of configuration `c`. The operand of `EVC` is read as the `k=` of the line it expands
to, so one of `2^CAP_W` or more is read as no pseudo-instruction (DESIGN CHOICE, log 13: R85 is silent on it). -/
def readPseudo (c : Config) (cs : List Char) : Option Pseudo :=
  match wordsOf cs with
  | [['E', 'V', 'W']] => some .evw
  | [['E', 'V', 'C'], n] => (readTicks c n).map .evc
  | [['T', 'I', 'C', 'K', 'S'], n] => (readNum n).map .ticks
  | [['P', 'U', 'L', 'S', 'E', 'S'], n] => (readNum n).map .pulses
  | [['I', 'D', 'L', 'E'], n] => (readNum n).map .idle
  | [['H', 'A', 'L', 'L'], n] => (readHall n).map .hall
  | _ => none

/-- The reset state of configuration `c` with a trace queued: how a program of R84 is loaded (log 3). -/
def State.loaded (c : Config) (ls : List TraceLine) : State :=
  { State.resetFor c with pending := assemble c ls }

end Sys2Proof.Machine
end

