-- ==== Sys2Proof/Machine/Ports.lean ====
section
/-! DEFINITION. The output ports (10_state.md R42, 30_encoding.md R71) and what a text sink prints for a report
(43_periodic_reporter.md R160). -/

namespace Sys2Proof.Machine

/-- The output ports of R71. -/
structure Outputs (c : Config) where
  patternOut : Byte
  patternLatch : Bool
  ackCorrect : Bool
  ackWrong : Bool
  reportValid : Bool
  reportKind : ReportKind
  reportValue : BitVec c.ivW
  start : Bool
  correctPending : Bool
  wrongPending : Bool
  intervalNs : BitVec c.ivW
  tickCount : BitVec c.tickW
  deriving DecidableEq, Repr

/-- R42: every output port is the value of one register in the current state. -/
def Regs.outputs {c : Config} (r : Regs c) : Outputs c where
  patternOut := r.pattern
  patternLatch := r.latchReq
  ackCorrect := r.ackC
  ackWrong := r.ackW
  reportValid := r.report.valid
  reportKind := r.report.kind
  reportValue := r.report.value
  start := r.armed
  correctPending := r.flags.correct
  wrongPending := r.flags.wrong
  intervalNs := r.intervalNs
  tickCount := r.tickCnt

/-- R160 (informative; HSV emits no text): the line a sink prints in a state, if it prints one. DESIGN CHOICE, log 15:
the spelling that 90_conflicts.md C2 and C3 take, with no line terminator. -/
def Outputs.textLine {c : Config} (o : Outputs c) : Option String :=
  if o.reportValid then
    if o.reportKind = kindInterval then
      some ("Time interval between two correct hall events: " ++ Nat.repr o.reportValue.toNat ++ "ns")
    else if o.reportKind = kindWrong then some "Wrong Hall Event"
    else none
  else none

end Sys2Proof.Machine
end

