-- ==== Sys2Proof/Safety.lean ====
section
/-! DEFINITION. The terms claims are made in: the invariants of 10_state.md R36 to R40, runs of the machine over queued
words, and the number of events a line signals (42_event_classifier.md R121). Every run of HSV is safe in the sense that
no step faults or stops; the environment's duties (R243 to R249) are premises of claims about events, not of steps
(R16). -/

namespace Sys2Proof.Machine

/-! ### The invariants of 10_state.md section 4 -/

namespace Regs

variable {c : Config}

/-- R36: the two flags are never both 1. -/
abbrev flagsExclusive (r : Regs c) : Prop := ¬(r.flags.correct = true ∧ r.flags.wrong = true)

/-- R37: `TICK_CNT < P_REPORT`. -/
abbrev tickBelowPeriod (r : Regs c) : Prop := r.tickCnt.toNat < c.pReport

/-- R38: how `ARMED` and `WARM_CNT` go together. -/
abbrev warmupConsistent (r : Regs c) : Prop :=
  (c.warmupPulses = 0 → r.armed = true ∧ r.warmCnt = 0) ∧
  (0 < c.warmupPulses →
    (r.armed = false ∧ r.warmCnt.toNat < c.warmupPulses) ∨
    (r.armed = true ∧ r.warmCnt.toNat = c.warmupPulses))

/-- R39: `PATTERN` is one of the six valid ROM entries. -/
abbrev patternValid (r : Regs c) : Prop :=
  r.pattern = 0x19 ∨ r.pattern = 0x32 ∨ r.pattern = 0x13 ∨ r.pattern = 0x2C ∨ r.pattern = 0x0D ∨ r.pattern = 0x26

/-- R40: the report triple is 0 when there is no report, and the kind and value fit otherwise. -/
abbrev reportConsistent (r : Regs c) : Prop :=
  (r.report.valid = false → r.report.kind = 0 ∧ r.report.value = 0) ∧
  (r.report.valid = true → r.report.kind = 1 ∨ r.report.kind = 2) ∧
  (r.report.kind = 2 → r.report.value = 0)

/-- R36 to R40 together. -/
abbrev Inv (r : Regs c) : Prop :=
  r.flagsExclusive ∧ r.tickBelowPeriod ∧ r.warmupConsistent ∧ r.patternValid ∧ r.reportConsistent

end Regs

/-- The invariant of the whole state: a legal configuration, R36 to R40, and nothing on the wires between edges. -/
abbrev State.Inv (s : State) : Prop := s.cfg.legal = true ∧ s.regs.Inv ∧ s.wires = Wires.idle

/-! ### Runs -/

/-- The state with the words `ws` queued. -/
def State.driven (s : State) (ws : List (Ciw s.cfg)) : State := { s with pending := ws }

/-- The states after each of `k` steps, up to the first stop. -/
def statesAfter : Nat → State → List State
  | 0, _ => []
  | k + 1, s =>
    match step s with
    | .next t => t :: statesAfter k t
    | .fault _ => []
    | .refused _ => []

/-- R121: how many times a line rises over the levels `ls`, when the level before them is `before`. -/
def rises : Bool → List Bool → Nat
  | _, [] => 0
  | before, l :: ls => (if l && !before then 1 else 0) + rises l ls

/-- The levels a word gives the four request lines. -/
def ciwLines {c : Config} (w : Ciw c) : Lines := (Inputs.ofCiw w).lines

/-- A word of a cycle that is no reset cycle. -/
abbrev notReset {c : Config} (w : Ciw c) : Prop := (Inputs.ofCiw w).rst = false

/-! ### The events of one cycle (R120): a line at 1 whose sample is 0 -/

/-- `ce`: the cycle that reads `w` in a state with registers `r` has a correct event. -/
abbrev correctEvent {c : Config} (r : Regs c) (w : Ciw c) : Bool := (ciwLines w).correct && !r.samples.correct

/-- `we`: it has a wrong event. -/
abbrev wrongEvent {c : Config} (r : Regs c) (w : Ciw c) : Bool := (ciwLines w).wrong && !r.samples.wrong

/-- `te`: it has a tick event. -/
abbrev tickEvent {c : Config} (r : Regs c) (w : Ciw c) : Bool := (ciwLines w).tick && !r.samples.tick

/-- `pe`: it has a warm-up event. -/
abbrev warmupEvent {c : Config} (r : Regs c) (w : Ciw c) : Bool := (ciwLines w).warmup && !r.samples.warmup

/-- A tick event now would be a boundary tick (R150): the incremented counter equals `P_REPORT`. -/
abbrev atBoundary {c : Config} (r : Regs c) : Prop := (r.tickCnt + 1).toNat = c.pReport

/-- The product a correct event in the cycle of `w` gives `INTERVAL_NS` (R129), in `IV_W`-bit arithmetic. -/
abbrev intervalOf {c : Config} (w : Ciw c) : BitVec c.ivW :=
  (Inputs.ofCiw w).captured.setWidth c.ivW * BitVec.ofNat c.ivW c.nsPerTick

end Sys2Proof.Machine
end

