-- ==== Sys2Proof/Certificates/Slice0/Obligations.lean ====
section
/-! DEFINITION. The statements for the provers. Each docstring names the rule it formalises. A state is written by its
fields `⟨cfg, regs, pending, freeCount, wires⟩`, so that two states of one configuration can be compared; every
statement about `exec` or `step` with an equation of whole states says with it that all the rest is unchanged. HSV has
no memory that an operation could store to (R51, R52), so no frame speaks of memory. The queue of input words, the counter
of free words and the wires of a cycle are the model's own fields (logs 3, 4 and 6); what a statement says of them rests
on no rule. -/

open Sys2Proof Sys2Proof.Machine

/-! ### Decoding -/

/-- Words written out from R72 and R78 decode to the operations they stand for: the CIWs of 95_test_vectors.md section 4
and R84's example, and the selector words of the table. -/
def Obligations.SpecWordsDecode : Prop :=
  decodeWord (c := Config.default) Lines.low 0x000081 = [.reset] ∧
  decodeWord (c := Config.default) Lines.low 0x00FA09 =
    [.edgeSample ⟨true, false, false, false⟩, .evCorrect 250, .romRead 1, .patUpdate 1] ∧
  decodeWord (c := Config.default) ⟨true, false, false, false⟩ 0x00FA0B =
    [.edgeSample ⟨true, false, false, false⟩, .idle, .romRead 3, .patUpdate 3] ∧
  decodeWord (c := Config.default) Lines.low 0x000729 =
    [.edgeSample ⟨true, false, true, false⟩, .evTick, .evCorrect 7, .romRead 1, .patUpdate 1] ∧
  decodeWord (c := Config.default) Lines.low 0x000015 =
    [.edgeSample ⟨false, true, false, false⟩, .evWrong, .romRead 5, .patUpdate 5] ∧
  decodeWord (c := Config.default) Lines.low 0x000040 =
    [.edgeSample ⟨false, false, false, true⟩, .evWarmup, .romRead 1, .patUpdate 0] ∧
  decodeTableWord 8 0x10 = some .reset ∧ decodeTableWord 8 0x04 = some .evTick ∧
  decodeTableWord 8 0x01 = some (.evCorrect 0) ∧ decodeTableWord 8 0x02 = some .evWrong ∧
  decodeTableWord 8 0x08 = some .evWarmup ∧ decodeTableWord 8 0x00 = some .idle

/-- R72: the layout of the Cycle Input Word, as a number, at every `CAP_W`; 24 bits at the default. -/
def Obligations.CycleInputWordLayout : Prop :=
  Config.default.capW + 8 = 24 ∧
  ∀ (c : Config) (inp : Inputs c),
    inp.toCiw.toNat =
      inp.hall.toNat + 8 * inp.lines.correct.toNat + 16 * inp.lines.wrong.toNat + 32 * inp.lines.tick.toNat +
        64 * inp.lines.warmup.toNat + 128 * inp.rst.toNat + 256 * inp.captured.toNat

/-- R72, R81: packing and unpacking a cycle's inputs are inverse to each other, in both directions, at every `CAP_W`. -/
def Obligations.CycleInputWordRoundTrip : Prop :=
  ∀ c : Config,
    (∀ inp : Inputs c, Inputs.ofCiw inp.toCiw = inp) ∧ (∀ w : Ciw c, (Inputs.ofCiw w).toCiw = w)

/-- R78: an operation with its operands is selected exactly when `(S & mask) = match` for its row of the table, for
every selector word. -/
def Obligations.SelectedByMaskAndMatch : Prop :=
  ∀ (c : Config) (s : Selector) (inp : Inputs c) (i : Instr),
    i ∈ decode s inp ↔
      (i = .reset ∧ s &&& 0x10 = 0x10) ∨
      (i = .edgeSample inp.lines ∧ s &&& 0x10 = 0x00) ∨
      (i = .patUpdate inp.hall ∧ s &&& 0x10 = 0x00) ∨
      (i = .romRead (subst inp.hall) ∧ s &&& 0x10 = 0x00) ∨
      (i = .evTick ∧ s &&& 0x14 = 0x04) ∨
      (i = .evCorrect inp.captured.toNat ∧ s &&& 0x11 = 0x01) ∨
      (i = .evWrong ∧ s &&& 0x12 = 0x02) ∨
      (i = .evWarmup ∧ s &&& 0x18 = 0x08) ∨
      (i = .idle ∧ s &&& 0x1F = 0x00)

/-- R77, R78, R79, R216: the operations of a cycle, from its word and the samples, in the order in which they take
effect. In a reset cycle E is not computed and RESET is alone. -/
def Obligations.OperationsOfACycleInOrder : Prop :=
  ∀ (c : Config) (r : Regs c) (w : Ciw c),
    let inp := Inputs.ofCiw w
    decodeWord r.samples w =
      if inp.rst then [.reset]
      else
        [.edgeSample inp.lines] ++
        (if tickEvent r w then [.evTick] else []) ++
        (if correctEvent r w then [.evCorrect inp.captured.toNat] else []) ++
        (if wrongEvent r w then [.evWrong] else []) ++
        (if warmupEvent r w then [.evWarmup] else []) ++
        (if tickEvent r w || correctEvent r w || wrongEvent r w || warmupEvent r w then [] else [.idle]) ++
        [.romRead (subst inp.hall), .patUpdate inp.hall]

/-- DECODE AND ENCODE AGREE, for every operation a cycle can issue, at every value of its operands and every
configuration: the cycle of its word has exactly one operation of its name, and that is the operation. (A cycle always
has others beside it: R78.) -/
def Obligations.DecodeOfEncode : Prop :=
  ∀ (c : Config) (i : Instr), i.wellFormed c = true →
    (decodeWord Lines.low (encode c i)).filter (fun j => j.mnemonic == i.mnemonic) = [i]

/-- The host's table words (the MODEL's choice, log 8 and log 9): after `withFetchWord` the next cycle runs the
operations of the selector word, and the operation `decodeTableWord` names is among them. -/
def Obligations.TableWordRunsNext : Prop :=
  ∀ (s : State) (nbits w : Nat), w < 32 → s.cfg.legal = true →
    let u := s.withFetchWord nbits w
    decodeWord u.regs.samples u.fetchWord =
      decode (if w < 16 then BitVec.ofNat 5 w else 0x10) (inputsOfSelector s.cfg (BitVec.ofNat 5 w)) ∧
    (∃ t, step u = .next t) ∧
    ∃ i, decodeTableWord nbits w = some i ∧ i ∈ decodeWord u.regs.samples u.fetchWord

/-! ### The step -/

/-- A STEP RUNS THE DECODED OPERATIONS. At a legal configuration, with the word `w` at the input ports, the step is the
run of the operations of `w`, in order, each by `exec`. Around them the step does this and no more: the word is taken
off the queue; in a non-reset cycle the pulse registers start at 0 (log 7); ROM_READ is issued inside PAT_UPDATE and not
a second time (R50); at the end the wires are idle (log 6). -/
def Obligations.StepRunsDecodedOperations : Prop :=
  ∀ (c : Config) (r : Regs c) (w : Ciw c) (ws : List (Ciw c)) (n : Nat) (x : Wires), c.legal = true →
    step ⟨c, r, w :: ws, n, x⟩ =
      andThen
        (runOps ((decodeWord r.samples w).filter (fun i => i.mnemonic != "ROM_READ"))
          ⟨c, if (Inputs.ofCiw w).rst then r else { r with ackC := false, ackW := false, report := ⟨false, 0, 0⟩ },
            ws, n, x⟩)
        (fun t => .next { t with wires := ⟨0, 0⟩ })

/-- R79: the step computes, for every register at once, the next value that the spec's step function writes, from every
pre-state and every input word. -/
def Obligations.StepIsTheFunctionOfR79 : Prop :=
  ∀ (c : Config) (r : Regs c) (w : Ciw c) (ws : List (Ciw c)) (n : Nat) (x : Wires), c.legal = true →
    step ⟨c, r, w :: ws, n, x⟩ = .next ⟨c, r.nextByR79 (Inputs.ofCiw w), ws, n, ⟨0, 0⟩⟩

/-- The MODEL's choice (log 4): a cycle that no queued word covers reads a free word, which nothing constrains, and the
counter of free words advances; otherwise it is a cycle like any other (R15, R81). -/
def Obligations.UndrivenCycleReadsAFreeWord : Prop :=
  ∀ (c : Config) (r : Regs c) (n : Nat) (x : Wires), c.legal = true →
    step ⟨c, r, [], n, x⟩ =
      .next ⟨c, r.nextByR79 (Inputs.ofCiw (BitVec.ofNat _ (Config.freeCiw n))), [], n + 1, ⟨0, 0⟩⟩

/-- R80: a cycle has the same effect on the flags, the interval and the counter as the software's steps run one after
another, each to completion: tick handler, correct handler, wrong handler, warm-up check, one pattern iteration. -/
def Obligations.CycleIsTheSoftwareOrder : Prop :=
  ∀ (c : Config) (r : Regs c) (w : Ciw c) (ws : List (Ciw c)) (n : Nat) (x : Wires), c.legal = true → notReset w →
    ∃ t u : Regs c, ∃ y : Wires,
      step ⟨c, r, w :: ws, n, x⟩ = .next ⟨c, t, ws, n, ⟨0, 0⟩⟩ ∧
      runOps
        ((if tickEvent r w then [.evTick] else []) ++
          (if correctEvent r w then [.evCorrect (Inputs.ofCiw w).captured.toNat] else []) ++
          (if wrongEvent r w then [.evWrong] else []) ++
          (if warmupEvent r w then [.evWarmup] else []) ++ [.patUpdate (Inputs.ofCiw w).hall])
        ⟨c, r, ws, n, x⟩ = .next ⟨c, u, ws, n, y⟩ ∧
      t.flags = u.flags ∧ t.intervalNs = u.intervalNs ∧ t.tickCnt = u.tickCnt

/-- R13: a configuration outside any range of R7 to R12 has no step; the fallback code is 1 and no parameter. Every
other configuration steps. -/
def Obligations.IllegalConfigurationRefused : Prop :=
  (∀ s : State,
    ¬(1 ≤ s.cfg.pReport ∧ s.cfg.pReport ≤ 2 ^ s.cfg.tickW - 1 ∧ s.cfg.nsPerTick ≤ 2 ^ s.cfg.ivW - 1 ∧
        1 ≤ s.cfg.capW ∧ s.cfg.capW ≤ 32 ∧ 1 ≤ s.cfg.ivW ∧ s.cfg.ivW ≤ 64 ∧
        1 ≤ s.cfg.tickW ∧ s.cfg.tickW ≤ 32 ∧ s.cfg.warmupPulses ≤ 65535) →
      step s = .refused .illegalConfig) ∧
  (∀ s : State,
    (1 ≤ s.cfg.pReport ∧ s.cfg.pReport ≤ 2 ^ s.cfg.tickW - 1 ∧ s.cfg.nsPerTick ≤ 2 ^ s.cfg.ivW - 1 ∧
        1 ≤ s.cfg.capW ∧ s.cfg.capW ≤ 32 ∧ 1 ≤ s.cfg.ivW ∧ s.cfg.ivW ≤ 64 ∧
        1 ≤ s.cfg.tickW ∧ s.cfg.tickW ≤ 32 ∧ s.cfg.warmupPulses ≤ 65535) →
      ∃ t, step s = .next t) ∧
  subst 0 = 1 ∧ subst 7 = 1

/-- R81, R20: with a legal configuration every state and every input word has a next state, of the same configuration;
one queued word is used and none is reordered. -/
def Obligations.EveryInputHasANextState : Prop :=
  ∀ (c : Config) (r : Regs c) (w : Ciw c) (ws : List (Ciw c)) (n : Nat) (x : Wires), c.legal = true →
    ∃ t : Regs c, step ⟨c, r, w :: ws, n, x⟩ = .next ⟨c, t, ws, n, ⟨0, 0⟩⟩

/-! ### Reset -/

/-- R240: RESET sets every register to its reset value whatever it held, and changes nothing else; in a cycle with
`rst = 1` nothing else runs, whatever the other inputs. It is the only way to clear `ARMED`, to put the edge samples at
anything but the inputs, and to restart the reporting period: a cycle without reset does none of the three. -/
def Obligations.ResetSetsEveryRegister : Prop :=
  ∀ (c : Config) (r : Regs c) (ws : List (Ciw c)) (n : Nat) (x : Wires),
    let after : Regs c :=
      { flags := ⟨false, false⟩, intervalNs := 0, tickCnt := 0, armed := decide (c.warmupPulses = 0), warmCnt := 0,
        pattern := 0x19, latchReq := false, samples := ⟨false, false, false, false⟩, ackC := false, ackW := false,
        report := ⟨false, 0, 0⟩ }
    exec .reset ⟨c, r, ws, n, x⟩ = .next ⟨c, after, ws, n, x⟩ ∧
    (∀ w : Ciw c, c.legal = true → (Inputs.ofCiw w).rst = true →
      step ⟨c, r, w :: ws, n, x⟩ = .next ⟨c, after, ws, n, ⟨0, 0⟩⟩) ∧
    ∀ w : Ciw c, c.legal = true → notReset w →
      ∃ t : Regs c, step ⟨c, r, w :: ws, n, x⟩ = .next ⟨c, t, ws, n, ⟨0, 0⟩⟩ ∧
        (r.armed = true → t.armed = true) ∧ t.samples = ciwLines w ∧
        (tickEvent r w = false → t.tickCnt = r.tickCnt) ∧
        (tickEvent r w = true → ¬atBoundary r → t.tickCnt = r.tickCnt + 1)

/-- R241: after a reset cycle and one non-reset cycle nothing remains of the state before or of the reset cycle's other
inputs, and a line at 1 in the first non-reset cycle is an event of that cycle. -/
def Obligations.EventsInAResetCycleAreNotRemembered : Prop :=
  ∀ (c : Config) (r : Regs c) (w v : Ciw c) (ws : List (Ciw c)) (n : Nat) (x : Wires), c.legal = true →
    (Inputs.ofCiw w).rst = true → notReset v →
    ∃ t : Regs c,
      Sys2Proof.core.run 2 (⟨c, r, w :: v :: ws, n, x⟩ : State) = .next (⟨c, t, ws, n, ⟨0, 0⟩⟩ : State) ∧
      t = (Regs.reset c).nextByR79 (Inputs.ofCiw v) ∧
      t.ackC = (ciwLines v).correct ∧ t.ackW = (ciwLines v).wrong ∧
      ((ciwLines v).tick = true → c.pReport ≠ 1 → t.tickCnt = 1) ∧
      ((ciwLines v).tick = false → t.tickCnt = 0) ∧
      ((ciwLines v).warmup = true → c.warmupPulses ≠ 0 → t.warmCnt = 1) ∧
      ((ciwLines v).warmup = false → t.warmCnt = 0)

/-! ### The event classifier -/

/-- R120: EDGE_SAMPLE computes the edge vector, records the levels, and changes nothing else; every non-reset cycle
records the levels of its inputs, and a reset cycle records none. -/
def Obligations.EdgeSampleComputesAndRecords : Prop :=
  (∀ (c : Config) (r : Regs c) (l : Lines) (ws : List (Ciw c)) (n : Nat) (x : Wires),
    ∃ e : EdgeVector,
      exec (.edgeSample l) ⟨c, r, ws, n, x⟩ = .next ⟨c, { r with samples := l }, ws, n, { x with edge := e }⟩ ∧
      e.getLsbD 0 = (l.correct && !r.samples.correct) ∧ e.getLsbD 1 = (l.wrong && !r.samples.wrong) ∧
      e.getLsbD 2 = (l.tick && !r.samples.tick) ∧ e.getLsbD 3 = (l.warmup && !r.samples.warmup)) ∧
  ∀ (c : Config) (r : Regs c) (w : Ciw c) (ws : List (Ciw c)) (n : Nat) (x : Wires), c.legal = true →
    ∃ t : Regs c, step ⟨c, r, w :: ws, n, x⟩ = .next ⟨c, t, ws, n, ⟨0, 0⟩⟩ ∧
      t.samples = if (Inputs.ofCiw w).rst then Lines.low else ciwLines w

/-- R122: EV_CORRECT writes the flags (1, 0), the interval product and the acknowledge, and changes nothing else; in a
cycle with a correct event the interval and the acknowledge are written, and the flags unless a wrong event of the same
cycle overrides them. -/
def Obligations.CorrectEventSetsFlagAndInterval : Prop :=
  (∀ (c : Config) (r : Regs c) (k : Nat) (ws : List (Ciw c)) (n : Nat) (x : Wires), k < 2 ^ c.capW →
    exec (.evCorrect k) ⟨c, r, ws, n, x⟩ =
      .next ⟨c, { r with flags := ⟨true, false⟩, ackC := true,
                         intervalNs := (BitVec.ofNat c.capW k).setWidth c.ivW * BitVec.ofNat c.ivW c.nsPerTick },
        ws, n, x⟩) ∧
  ∀ (c : Config) (r : Regs c) (w : Ciw c) (ws : List (Ciw c)) (n : Nat) (x : Wires), c.legal = true →
    notReset w → correctEvent r w = true →
    ∃ t : Regs c, step ⟨c, r, w :: ws, n, x⟩ = .next ⟨c, t, ws, n, ⟨0, 0⟩⟩ ∧
      t.intervalNs = intervalOf w ∧ t.ackC = true ∧ (wrongEvent r w = false → t.flags = ⟨true, false⟩)

/-- R123: EV_WRONG writes the flags (0, 1) and the acknowledge, and changes nothing else, `INTERVAL_NS` among it; in a
cycle with a wrong event the flags are (0, 1), whatever else the cycle does, and without a correct event the interval is
unchanged. -/
def Obligations.WrongEventSetsFlag : Prop :=
  (∀ (c : Config) (r : Regs c) (ws : List (Ciw c)) (n : Nat) (x : Wires),
    exec .evWrong ⟨c, r, ws, n, x⟩ = .next ⟨c, { r with flags := ⟨false, true⟩, ackW := true }, ws, n, x⟩) ∧
  ∀ (c : Config) (r : Regs c) (w : Ciw c) (ws : List (Ciw c)) (n : Nat) (x : Wires), c.legal = true →
    notReset w → wrongEvent r w = true →
    ∃ t : Regs c, step ⟨c, r, w :: ws, n, x⟩ = .next ⟨c, t, ws, n, ⟨0, 0⟩⟩ ∧
      t.flags = ⟨false, true⟩ ∧ t.ackW = true ∧ (correctEvent r w = false → t.intervalNs = r.intervalNs)

/-- R124: a correct and a wrong event in one cycle both run, and the wrong event writes the flags last. -/
def Obligations.WrongAfterCorrectInOneCycle : Prop :=
  ∀ (c : Config) (r : Regs c) (w : Ciw c) (ws : List (Ciw c)) (n : Nat) (x : Wires), c.legal = true →
    notReset w → correctEvent r w = true → wrongEvent r w = true →
    ∃ t : Regs c, step ⟨c, r, w :: ws, n, x⟩ = .next ⟨c, t, ws, n, ⟨0, 0⟩⟩ ∧
      t.flags = ⟨false, true⟩ ∧ t.intervalNs = intervalOf w ∧ t.ackC = true ∧ t.ackW = true

/-- R125: an event's flags override a report's clear in the same cycle; with no event, the boundary evaluation of the
pre-state flags stands (one flag alone is cleared, both or none are kept), and off a boundary the flags are unchanged. -/
def Obligations.EventOverridesReportClear : Prop :=
  ∀ (c : Config) (r : Regs c) (w : Ciw c) (ws : List (Ciw c)) (n : Nat) (x : Wires), c.legal = true → notReset w →
    ∃ t : Regs c, step ⟨c, r, w :: ws, n, x⟩ = .next ⟨c, t, ws, n, ⟨0, 0⟩⟩ ∧
      (wrongEvent r w = true → t.flags = ⟨false, true⟩) ∧
      (wrongEvent r w = false → correctEvent r w = true → t.flags = ⟨true, false⟩) ∧
      (wrongEvent r w = false → correctEvent r w = false → tickEvent r w = true → atBoundary r →
        t.flags = ⟨r.flags.correct && r.flags.wrong, r.flags.correct && r.flags.wrong⟩) ∧
      (wrongEvent r w = false → correctEvent r w = false → ¬(tickEvent r w = true ∧ atBoundary r) →
        t.flags = r.flags)

/-- R126: in every non-reset cycle each acknowledge is written with whether the cycle had its event, whatever the flags
were; the pulse is one cycle long, since the cycle after an event has no event of the same kind, whatever its word. -/
def Obligations.AcknowledgeFollowsEvent : Prop :=
  ∀ (c : Config) (r : Regs c) (w : Ciw c) (ws : List (Ciw c)) (n : Nat) (x : Wires), c.legal = true → notReset w →
    ∃ t : Regs c, step ⟨c, r, w :: ws, n, x⟩ = .next ⟨c, t, ws, n, ⟨0, 0⟩⟩ ∧
      t.ackC = correctEvent r w ∧ t.ackW = wrongEvent r w ∧
      ∀ v : Ciw c, (correctEvent r w = true → correctEvent t v = false) ∧ (wrongEvent r w = true → wrongEvent t v = false)

/-- R41: `LATCH_REQ` is 0 only right after a reset cycle, and an acknowledge is 1 only right after its event. -/
def Obligations.LatchAndAcknowledgeStates : Prop :=
  ∀ (c : Config) (r : Regs c) (w : Ciw c) (ws : List (Ciw c)) (n : Nat) (x : Wires), c.legal = true →
    ∃ t : Regs c, step ⟨c, r, w :: ws, n, x⟩ = .next ⟨c, t, ws, n, ⟨0, 0⟩⟩ ∧
      (t.latchReq = false ↔ (Inputs.ofCiw w).rst = true) ∧
      (t.ackC = true ↔ notReset w ∧ correctEvent r w = true) ∧
      (t.ackW = true ↔ notReset w ∧ wrongEvent r w = true)

/-- R128: IDLE puts the acknowledges and the report at 0 and changes nothing else; a non-reset cycle with no event does
that, records the line levels and updates the pattern, and changes no other register. -/
def Obligations.IdleHoldsEverythingElse : Prop :=
  (∀ (c : Config) (r : Regs c) (ws : List (Ciw c)) (n : Nat) (x : Wires),
    exec .idle ⟨c, r, ws, n, x⟩ =
      .next ⟨c, { r with ackC := false, ackW := false, report := ⟨false, 0, 0⟩ }, ws, n, x⟩) ∧
  ∀ (c : Config) (r : Regs c) (w : Ciw c) (ws : List (Ciw c)) (n : Nat) (x : Wires), c.legal = true → notReset w →
    correctEvent r w = false → wrongEvent r w = false → tickEvent r w = false → warmupEvent r w = false →
    step ⟨c, r, w :: ws, n, x⟩ =
      .next ⟨c, { r with ackC := false, ackW := false, report := ⟨false, 0, 0⟩, samples := ciwLines w,
                         pattern := rom (subst (Inputs.ofCiw w).hall), latchReq := true }, ws, n, ⟨0, 0⟩⟩

/-- R129: the interval is the unsigned product modulo `2^IV_W`, at every width; at the default widths it cannot wrap for
`NS_PER_TICK` up to 65537, since `65535 * 65537 = 2^32 - 1`. -/
def Obligations.IntervalProductModuloWidth : Prop :=
  (∀ (c : Config) (r : Regs c) (k : Nat) (ws : List (Ciw c)) (n : Nat) (x : Wires), k < 2 ^ c.capW →
    ∃ t : Regs c, exec (.evCorrect k) ⟨c, r, ws, n, x⟩ = .next ⟨c, t, ws, n, x⟩ ∧
      t.intervalNs.toNat = k * c.nsPerTick % 2 ^ c.ivW ∧
      (c.capW = 16 → c.ivW = 32 → c.nsPerTick ≤ 65537 → t.intervalNs.toNat = k * c.nsPerTick)) ∧
  65535 * 65537 = 2 ^ 32 - 1

/-- R130: outside a cycle with a correct event, `captured_ticks` has no effect on any state. -/
def Obligations.CapturedTicksIgnoredWithoutCorrectEvent : Prop :=
  ∀ (c : Config) (r : Regs c) (v w : Ciw c) (ws : List (Ciw c)) (n : Nat) (x : Wires), c.legal = true →
    (Inputs.ofCiw v).hall = (Inputs.ofCiw w).hall → ciwLines v = ciwLines w →
    (Inputs.ofCiw v).rst = (Inputs.ofCiw w).rst →
    ((Inputs.ofCiw w).rst = true ∨ correctEvent r w = false) →
    ∃ t : State, step ⟨c, r, v :: ws, n, x⟩ = .next t ∧ step ⟨c, r, w :: ws, n, x⟩ = .next t

/-! ### The periodic reporter -/

/-- R150, R155: EV_TICK off a boundary counts, reports nothing and changes nothing else. A cycle without a tick event
keeps the counter and reports nothing. On a boundary the counter is 0. -/
def Obligations.TickCounts : Prop :=
  (∀ (c : Config) (r : Regs c) (ws : List (Ciw c)) (n : Nat) (x : Wires), ¬atBoundary r →
    exec .evTick ⟨c, r, ws, n, x⟩ =
      .next ⟨c, { r with tickCnt := r.tickCnt + 1, report := ⟨false, 0, 0⟩ }, ws, n, x⟩) ∧
  ∀ (c : Config) (r : Regs c) (w : Ciw c) (ws : List (Ciw c)) (n : Nat) (x : Wires), c.legal = true → notReset w →
    ∃ t : Regs c, step ⟨c, r, w :: ws, n, x⟩ = .next ⟨c, t, ws, n, ⟨0, 0⟩⟩ ∧
      (tickEvent r w = false → t.tickCnt = r.tickCnt ∧ t.report = ⟨false, 0, 0⟩) ∧
      (tickEvent r w = true → ¬atBoundary r → t.tickCnt = r.tickCnt + 1 ∧ t.report = ⟨false, 0, 0⟩) ∧
      (tickEvent r w = true → atBoundary r → t.tickCnt = 0)

/-- R151 to R154: on a boundary tick EV_TICK restarts the counter, reports and clears one flag alone, and with none or
both reports nothing and keeps them; it changes nothing else. -/
def Obligations.BoundaryEvaluation : Prop :=
  ∀ (c : Config) (r : Regs c) (ws : List (Ciw c)) (n : Nat) (x : Wires), atBoundary r →
    (r.flags = ⟨true, false⟩ →
      exec .evTick ⟨c, r, ws, n, x⟩ =
        .next ⟨c, { r with flags := ⟨false, false⟩, tickCnt := 0, report := ⟨true, 1, r.intervalNs⟩ }, ws, n, x⟩) ∧
    (r.flags = ⟨false, true⟩ →
      exec .evTick ⟨c, r, ws, n, x⟩ =
        .next ⟨c, { r with flags := ⟨false, false⟩, tickCnt := 0, report := ⟨true, 2, 0⟩ }, ws, n, x⟩) ∧
    (r.flags.correct = r.flags.wrong →
      exec .evTick ⟨c, r, ws, n, x⟩ =
        .next ⟨c, { r with tickCnt := 0, report := ⟨false, 0, 0⟩ }, ws, n, x⟩)

/-- R155: every cycle writes the report triple. It is a report of the PRE-STATE flags and interval on a boundary tick
with one flag alone in a non-reset cycle, and 0 otherwise, whatever transition events the cycle also has. -/
def Obligations.ReportTriplePerCycle : Prop :=
  ∀ (c : Config) (r : Regs c) (w : Ciw c) (ws : List (Ciw c)) (n : Nat) (x : Wires), c.legal = true →
    ∃ t : Regs c, step ⟨c, r, w :: ws, n, x⟩ = .next ⟨c, t, ws, n, ⟨0, 0⟩⟩ ∧
      (notReset w → tickEvent r w = true → atBoundary r → r.flags = ⟨true, false⟩ →
        t.report = ⟨true, 1, r.intervalNs⟩) ∧
      (notReset w → tickEvent r w = true → atBoundary r → r.flags = ⟨false, true⟩ →
        t.report = ⟨true, 2, 0⟩) ∧
      (¬(notReset w ∧ tickEvent r w = true ∧ atBoundary r ∧ r.flags.correct ≠ r.flags.wrong) →
        t.report = ⟨false, 0, 0⟩)

/-- R161: no operation but EV_TICK (and RESET, with which the first period starts at 0) reads or writes `TICK_CNT`:
another value of it is kept and changes nothing else. So too for the whole cycle, when it has no tick event. -/
def Obligations.OnlyTickUsesTickCount : Prop :=
  (∀ (i : Instr) (c : Config) (r : Regs c) (v : BitVec c.tickW) (ws : List (Ciw c)) (n : Nat) (x : Wires),
    i ≠ .evTick → i ≠ .reset →
    ∃ (t : Regs c) (y : Wires), exec i ⟨c, r, ws, n, x⟩ = .next ⟨c, t, ws, n, y⟩ ∧ t.tickCnt = r.tickCnt ∧
      exec i ⟨c, { r with tickCnt := v }, ws, n, x⟩ = .next ⟨c, { t with tickCnt := v }, ws, n, y⟩) ∧
  (∀ (c : Config) (r : Regs c) (ws : List (Ciw c)) (n : Nat) (x : Wires),
    ∃ t : Regs c, exec .reset ⟨c, r, ws, n, x⟩ = .next ⟨c, t, ws, n, x⟩ ∧ t.tickCnt = 0) ∧
  ∀ (c : Config) (r : Regs c) (v : BitVec c.tickW) (w : Ciw c) (ws : List (Ciw c)) (n : Nat) (x : Wires),
    c.legal = true → notReset w → tickEvent r w = false →
    ∃ t : Regs c, step ⟨c, r, w :: ws, n, x⟩ = .next ⟨c, t, ws, n, ⟨0, 0⟩⟩ ∧ t.tickCnt = r.tickCnt ∧
      step ⟨c, { r with tickCnt := v }, w :: ws, n, x⟩ = .next ⟨c, { t with tickCnt := v }, ws, n, ⟨0, 0⟩⟩

/-- R156 (and R37): along every run without a reset, from every state with `TICK_CNT < P_REPORT`, `TICK_CNT` is the
number of tick events so far modulo `P_REPORT`. -/
def Obligations.TickCountIsEventsModuloPeriod : Prop :=
  ∀ (c : Config) (r : Regs c) (ws : List (Ciw c)) (n : Nat) (x : Wires), c.legal = true → r.tickBelowPeriod →
    (∀ w ∈ ws, notReset w) →
    ∃ t : Regs c,
      Sys2Proof.core.run ws.length (⟨c, r, ws, n, x⟩ : State) =
        .next (⟨c, t, [], n, if ws = [] then x else ⟨0, 0⟩⟩ : State) ∧
      t.tickCnt.toNat =
        (r.tickCnt.toNat + rises r.samples.tick (ws.map fun w => (ciwLines w).tick)) % c.pReport

/-- R156: a report appears only on a boundary tick. From reset, if the state after a run shows a report, the run's last
cycle had a tick event and the tick events so far number a multiple of `P_REPORT`, and not 0. -/
def Obligations.ReportsOnlyOnBoundaryTicks : Prop :=
  ∀ (c : Config) (ws : List (Ciw c)) (w : Ciw c) (n : Nat) (x : Wires), c.legal = true →
    (∀ v ∈ ws ++ [w], notReset v) →
    ∃ t : Regs c,
      Sys2Proof.core.run (ws.length + 1) (⟨c, Regs.reset c, ws ++ [w], n, x⟩ : State) =
        .next (⟨c, t, [], n, ⟨0, 0⟩⟩ : State) ∧
      (t.report.valid = true →
        let before := rises false (ws.map fun v => (ciwLines v).tick)
        let upToNow := rises false ((ws ++ [w]).map fun v => (ciwLines v).tick)
        upToNow = before + 1 ∧ upToNow % c.pReport = 0)

/-- R157: at most one report in any `P_REPORT` consecutive tick events, and at most one per boundary tick, along every
run without a reset from every state with `TICK_CNT < P_REPORT`. -/
def Obligations.AtMostOneReportPerPeriod : Prop :=
  ∀ (c : Config) (r : Regs c) (ws : List (Ciw c)) (n : Nat) (x : Wires), c.legal = true → r.tickBelowPeriod →
    (∀ w ∈ ws, notReset w) →
    let ticks := rises r.samples.tick (ws.map fun w => (ciwLines w).tick)
    let states := statesAfter ws.length ⟨c, r, ws, n, x⟩
    let reports := states.countP (fun t => t.regs.report.valid)
    states.length = ws.length ∧ c.pReport * reports ≤ r.tickCnt.toNat + ticks ∧ (ticks ≤ c.pReport → reports ≤ 1)

/-- R121, R126: along every run without a reset, from every state, the acknowledge pulses of each kind number exactly
the rises of its line: a line held at 1 is one event, and every event is acknowledged once. -/
def Obligations.EveryRiseAcknowledgedOnce : Prop :=
  ∀ (c : Config) (r : Regs c) (ws : List (Ciw c)) (n : Nat) (x : Wires), c.legal = true →
    (∀ w ∈ ws, notReset w) →
    let states := statesAfter ws.length ⟨c, r, ws, n, x⟩
    states.length = ws.length ∧
    states.countP (fun t => t.regs.ackC) = rises r.samples.correct (ws.map fun w => (ciwLines w).correct) ∧
    states.countP (fun t => t.regs.ackW) = rises r.samples.wrong (ws.map fun w => (ciwLines w).wrong)

/-- R158, R127 and 90_conflicts.md C1, C5: the last event before a boundary is what the boundary reports. The cycle of
`v` has a transition event; no cycle of `ws` and not the last cycle `w` has one; the boundary tick is the last cycle's.
Then the state after `w` reports WRONG if `v` had a wrong event and otherwise the interval of `v`, and both flags are 0.
Earlier flags, intervals and reports do not matter. -/
def Obligations.LastEventIsReportedAtTheBoundary : Prop :=
  ∀ (c : Config) (r : Regs c) (v w : Ciw c) (ws : List (Ciw c)) (n : Nat) (x : Wires), c.legal = true →
    (∀ u ∈ v :: (ws ++ [w]), notReset u) →
    (correctEvent r v = true ∨ wrongEvent r v = true) →
    rises (ciwLines v).correct ((ws ++ [w]).map fun u => (ciwLines u).correct) = 0 →
    rises (ciwLines v).wrong ((ws ++ [w]).map fun u => (ciwLines u).wrong) = 0 →
    r.tickCnt.toNat + rises r.samples.tick ((v :: (ws ++ [w])).map fun u => (ciwLines u).tick) = c.pReport →
    r.tickCnt.toNat + rises r.samples.tick ((v :: ws).map fun u => (ciwLines u).tick) + 1 = c.pReport →
    ∃ t : Regs c,
      Sys2Proof.core.run (ws.length + 2) (⟨c, r, v :: (ws ++ [w]), n, x⟩ : State) =
        .next (⟨c, t, [], n, ⟨0, 0⟩⟩ : State) ∧
      t.flags = ⟨false, false⟩ ∧ t.tickCnt = 0 ∧
      t.report = if wrongEvent r v then ⟨true, 2, 0⟩ else ⟨true, 1, intervalOf v⟩

/-! ### The sequence table and the pattern path -/

/-- R100, R101: ROM_READ gives the entry of the table for each of the eight addresses, on the ROM's data wires, and
changes nothing else. -/
def Obligations.RomReadGivesTheEntry : Prop :=
  ∀ (c : Config) (r : Regs c) (ws : List (Ciw c)) (n : Nat) (x : Wires) (a : HallCode),
    ∃ b : Byte,
      exec (.romRead a) ⟨c, r, ws, n, x⟩ = .next ⟨c, r, ws, n, { x with romData := b }⟩ ∧
      (a = 0 → b = 0x00) ∧ (a = 1 → b = 0x19) ∧ (a = 2 → b = 0x32) ∧ (a = 3 → b = 0x13) ∧
      (a = 4 → b = 0x2C) ∧ (a = 5 → b = 0x0D) ∧ (a = 6 → b = 0x26) ∧ (a = 7 → b = 0x00)

/-- R102, R103, R75: the successor function is one cycle of length six over the legal codes, a bijection without a fixed
point, and each of its steps changes one Hall line; a legal entry echoes its address, packs the pair with bits 7:6 at 0,
and the sentinel entries are 0. -/
def Obligations.CommutationSequence : Prop :=
  (nextCode 1 = 3 ∧ nextCode 3 = 2 ∧ nextCode 2 = 6 ∧ nextCode 6 = 4 ∧ nextCode 4 = 5 ∧ nextCode 5 = 1) ∧
  (∀ a : HallCode, a ≠ 0 → a ≠ 7 →
    nextCode a ≠ 0 ∧ nextCode a ≠ 7 ∧ nextCode a ≠ a ∧ currentCode (rom a) = a ∧
    (rom a).toNat = 8 * (nextCode a).toNat + a.toNat ∧
    (nextCode a ^^^ a = 1 ∨ nextCode a ^^^ a = 2 ∨ nextCode a ^^^ a = 4)) ∧
  (∀ a b : HallCode, a ≠ 0 → a ≠ 7 → b ≠ 0 → b ≠ 7 → nextCode a = nextCode b → a = b) ∧
  rom 0 = 0x00 ∧ rom 7 = 0x00

/-- R181, R182, R184: PAT_UPDATE loads the entry of the Hall code, with code 1 for the sentinel codes 0 and 7, requests
the latch, and changes no other register; every non-reset cycle does so, whatever else it does. -/
def Obligations.PatternUpdate : Prop :=
  ∀ (c : Config) (r : Regs c) (ws : List (Ciw c)) (n : Nat) (x : Wires) (h : HallCode),
    ∃ b : Byte,
      exec (.patUpdate h) ⟨c, r, ws, n, x⟩ =
        .next ⟨c, { r with pattern := b, latchReq := true }, ws, n, { x with romData := b }⟩ ∧
      (h = 0 → b = 0x19) ∧ (h = 1 → b = 0x19) ∧ (h = 2 → b = 0x32) ∧ (h = 3 → b = 0x13) ∧
      (h = 4 → b = 0x2C) ∧ (h = 5 → b = 0x0D) ∧ (h = 6 → b = 0x26) ∧ (h = 7 → b = 0x19) ∧
      ∀ w : Ciw c, c.legal = true → notReset w → (Inputs.ofCiw w).hall = h →
        ∃ t : Regs c, step ⟨c, r, w :: ws, n, x⟩ = .next ⟨c, t, ws, n, ⟨0, 0⟩⟩ ∧ t.pattern = b ∧ t.latchReq = true

/-- R183: the pattern path and the rest are independent. The next pattern depends on `hall_in` alone; and another
`hall_in`, `PATTERN` or `LATCH_REQ` changes nothing in the next state but the pattern path's own registers. -/
def Obligations.PatternPathIsIndependent : Prop :=
  (∀ (c : Config) (r q : Regs c) (v w : Ciw c) (ws : List (Ciw c)) (n : Nat) (x : Wires), c.legal = true →
    notReset v → notReset w → (Inputs.ofCiw v).hall = (Inputs.ofCiw w).hall →
    ∃ t u : Regs c, step ⟨c, r, v :: ws, n, x⟩ = .next ⟨c, t, ws, n, ⟨0, 0⟩⟩ ∧
      step ⟨c, q, w :: ws, n, x⟩ = .next ⟨c, u, ws, n, ⟨0, 0⟩⟩ ∧
      t.pattern = u.pattern ∧ t.latchReq = u.latchReq) ∧
  ∀ (c : Config) (r : Regs c) (b : Byte) (l : Bool) (v w : Ciw c) (ws : List (Ciw c)) (n : Nat) (x : Wires),
    c.legal = true → ciwLines v = ciwLines w → (Inputs.ofCiw v).captured = (Inputs.ofCiw w).captured →
    (Inputs.ofCiw v).rst = (Inputs.ofCiw w).rst →
    ∃ t u : Regs c, step ⟨c, r, v :: ws, n, x⟩ = .next ⟨c, t, ws, n, ⟨0, 0⟩⟩ ∧
      step ⟨c, { r with pattern := b, latchReq := l }, w :: ws, n, x⟩ = .next ⟨c, u, ws, n, ⟨0, 0⟩⟩ ∧
      u = { t with pattern := u.pattern, latchReq := u.latchReq }

/-! ### The warm-up latch -/

/-- R185: EV_WARMUP counts while `ARMED = 0`, arms when the count reaches `WARMUP_PULSES`, is ignored once armed, and
changes nothing else; a non-reset cycle without a warm-up event keeps both registers. -/
def Obligations.WarmupCountsAndArms : Prop :=
  (∀ (c : Config) (r : Regs c) (ws : List (Ciw c)) (n : Nat) (x : Wires),
    (r.armed = true → exec .evWarmup ⟨c, r, ws, n, x⟩ = .next ⟨c, r, ws, n, x⟩) ∧
    (r.armed = false → (r.warmCnt + 1).toNat = c.warmupPulses →
      exec .evWarmup ⟨c, r, ws, n, x⟩ = .next ⟨c, { r with armed := true, warmCnt := r.warmCnt + 1 }, ws, n, x⟩) ∧
    (r.armed = false → (r.warmCnt + 1).toNat ≠ c.warmupPulses →
      exec .evWarmup ⟨c, r, ws, n, x⟩ = .next ⟨c, { r with warmCnt := r.warmCnt + 1 }, ws, n, x⟩)) ∧
  ∀ (c : Config) (r : Regs c) (w : Ciw c) (ws : List (Ciw c)) (n : Nat) (x : Wires), c.legal = true → notReset w →
    ∃ t : Regs c, step ⟨c, r, w :: ws, n, x⟩ = .next ⟨c, t, ws, n, ⟨0, 0⟩⟩ ∧
      (warmupEvent r w = false ∨ r.armed = true → t.armed = r.armed ∧ t.warmCnt = r.warmCnt) ∧
      (warmupEvent r w = true → r.armed = false →
        t.warmCnt = r.warmCnt + 1 ∧ t.armed = decide ((r.warmCnt + 1).toNat = c.warmupPulses))

/-- R12, R25, R186, R244: along every run from reset without another reset, `start` is 1 exactly when at least
`WARMUP_PULSES` warm-up events have come, and `WARM_CNT` has counted them up to that number. -/
def Obligations.StartAfterWarmupPulses : Prop :=
  ∀ (c : Config) (ws : List (Ciw c)) (n : Nat) (x : Wires), c.legal = true → (∀ w ∈ ws, notReset w) →
    ∃ t : Regs c,
      Sys2Proof.core.run ws.length (⟨c, Regs.reset c, ws, n, x⟩ : State) =
        .next (⟨c, t, [], n, if ws = [] then x else ⟨0, 0⟩⟩ : State) ∧
      (let pulses := rises false (ws.map fun w => (ciwLines w).warmup)
       t.outputs.start = decide (c.warmupPulses ≤ pulses) ∧ t.warmCnt.toNat = min pulses c.warmupPulses)

/-- R187: `ARMED` gates nothing inside HSV. Other values of `ARMED` and `WARM_CNT` change nothing in the next state but
those two registers. -/
def Obligations.ArmedGatesNothing : Prop :=
  ∀ (c : Config) (r : Regs c) (a : Bool) (m : BitVec 16) (w : Ciw c) (ws : List (Ciw c)) (n : Nat) (x : Wires),
    c.legal = true →
    ∃ t u : Regs c, step ⟨c, r, w :: ws, n, x⟩ = .next ⟨c, t, ws, n, ⟨0, 0⟩⟩ ∧
      step ⟨c, { r with armed := a, warmCnt := m }, w :: ws, n, x⟩ = .next ⟨c, u, ws, n, ⟨0, 0⟩⟩ ∧
      u = { t with armed := u.armed, warmCnt := u.warmCnt }

/-! ### Invariants and outputs -/

/-- R36 to R40 hold in the reset state of every legal configuration. -/
def Obligations.InvariantAtReset : Prop :=
  (∀ c : Config, c.legal = true → (State.resetFor c).Inv) ∧ State.reset.Inv

/-- R36 to R40: every step keeps them, from every state that has them and on every input. -/
def Obligations.InvariantKeptByEveryStep : Prop :=
  ∀ s : State, s.Inv → ∃ t, step s = .next t ∧ t.Inv ∧ t.cfg = s.cfg

/-- R42, R71: the output ports show the registers of the table, one each. -/
def Obligations.OutputPortsShowRegisters : Prop :=
  ∀ (c : Config) (r : Regs c),
    r.outputs.patternOut = r.pattern ∧ r.outputs.patternLatch = r.latchReq ∧ r.outputs.ackCorrect = r.ackC ∧
    r.outputs.ackWrong = r.ackW ∧ r.outputs.reportValid = r.report.valid ∧ r.outputs.reportKind = r.report.kind ∧
    r.outputs.reportValue = r.report.value ∧ r.outputs.start = r.armed ∧
    r.outputs.correctPending = r.flags.correct ∧ r.outputs.wrongPending = r.flags.wrong ∧
    r.outputs.intervalNs = r.intervalNs ∧ r.outputs.tickCount = r.tickCnt

/-- R43: the hidden registers drive no output: other values of `WARM_CNT` and of the four samples show nothing. -/
def Obligations.HiddenStateDrivesNoOutput : Prop :=
  ∀ (c : Config) (r : Regs c) (m : BitVec 16) (l : Lines),
    ({ r with warmCnt := m, samples := l } : Regs c).outputs = r.outputs

/-! ### The trace notation -/

/-- R84's example, and the `h=` that holds until the next: a line read from characters assembles to its CIW. -/
def Obligations.TraceExample : Prop :=
  (readLine Config.default ['C', ' ', 'k', '=', '2', '5', '0', ' ', 'h', '=', '1']).map
      (fun l => assemble Config.default [l, TraceLine.n]) = some [0x00FA09, 0x000001]

/-- R85: the pseudo-instructions' cycle counts, and that each event pseudo-instruction returns its line to 0, so that
`n` of them give `n` events on their line. -/
def Obligations.PseudoInstructionsGiveTheirEvents : Prop :=
  ∀ (k n : Nat) (h : HallCode),
    (Pseudo.evc k).expand.length = 2 ∧ Pseudo.evw.expand.length = 2 ∧ (Pseudo.ticks n).expand.length = 2 * n ∧
    (Pseudo.pulses n).expand.length = 2 * n ∧ (Pseudo.idle n).expand.length = n ∧
    (Pseudo.hall h).expand = [⟨false, Lines.low, 0, some h⟩] ∧
    (Pseudo.evc k).expand = [⟨false, ⟨true, false, false, false⟩, k, none⟩, ⟨false, Lines.low, 0, none⟩] ∧
    Pseudo.evw.expand = [⟨false, ⟨false, true, false, false⟩, 0, none⟩, ⟨false, Lines.low, 0, none⟩] ∧
    (∀ l ∈ (Pseudo.idle n).expand, l = ⟨false, Lines.low, 0, none⟩) ∧
    rises false ((Pseudo.ticks n).expand.map fun l => l.lines.tick) = n ∧
    rises false ((Pseudo.pulses n).expand.map fun l => l.lines.warmup) = n
end

