-- ==== Sys2Proof/Laws/Decode.lean ====
section
/-! SUPPORT. What the pieces of decoding give: the bits of the control byte (R72), the bits of the edge vector (R77), the
fallback (R181), and the selector word of a reset cycle (R78). -/

namespace Sys2Proof

/-- The fields of the control byte stand at the bits R72 gives them. -/
theorem Inputs.controlByte_fields {c : Config} (inp : Inputs c) :
    inp.controlByte.extractLsb' 0 3 = inp.hall ∧
    inp.controlByte.getLsbD 3 = inp.lines.correct ∧ inp.controlByte.getLsbD 4 = inp.lines.wrong ∧
    inp.controlByte.getLsbD 5 = inp.lines.tick ∧ inp.controlByte.getLsbD 6 = inp.lines.warmup ∧
    inp.controlByte.getLsbD 7 = inp.rst := by
  obtain ⟨h, ⟨lc, lw, lt, lp⟩, rst, k⟩ := inp
  unfold Inputs.controlByte
  simp only
  clear k
  revert h lc lw lt lp rst
  decide

/-- The control byte as a number (R72). -/
theorem Inputs.controlByte_toNat {c : Config} (inp : Inputs c) :
    inp.controlByte.toNat =
      inp.hall.toNat + 8 * inp.lines.correct.toNat + 16 * inp.lines.wrong.toNat + 32 * inp.lines.tick.toNat +
        64 * inp.lines.warmup.toNat + 128 * inp.rst.toNat := by
  obtain ⟨h, ⟨lc, lw, lt, lp⟩, rst, k⟩ := inp
  unfold Inputs.controlByte
  simp only
  clear k
  revert h lc lw lt lp rst
  decide

/-- Each bit of the edge vector is the event of its line (R77, R120). -/
theorem edges_bits (q l : Lines) :
    (edges q l).getLsbD 0 = (l.correct && !q.correct) ∧ (edges q l).getLsbD 1 = (l.wrong && !q.wrong) ∧
    (edges q l).getLsbD 2 = (l.tick && !q.tick) ∧ (edges q l).getLsbD 3 = (l.warmup && !q.warmup) := by
  obtain ⟨a, b, d, e⟩ := q
  obtain ⟨a', b', d', e'⟩ := l
  revert a b d e a' b' d' e'
  decide

/-- R181: what the fallback gives is never a sentinel code. -/
theorem subst_legal (h : HallCode) : subst h ≠ 0 ∧ subst h ≠ 7 := by
  revert h; decide

/-- R181: a legal code is left as it is. -/
theorem subst_of_legal : ∀ h : HallCode, h ≠ 0 → h ≠ 7 → subst h = h := by
  decide

/-- R78: in a reset cycle RESET is selected and nothing else. -/
theorem decode_reset {c : Config} (e : EdgeVector) (inp : Inputs c) : decode (selectorWord true e) inp = [.reset] := by
  have rows : ∀ e : EdgeVector,
      selectorWord true e &&& 0x10 = 0x10 ∧ selectorWord true e &&& 0x14 ≠ 0x04 ∧
      selectorWord true e &&& 0x11 ≠ 0x01 ∧ selectorWord true e &&& 0x12 ≠ 0x02 ∧
      selectorWord true e &&& 0x18 ≠ 0x08 ∧ selectorWord true e &&& 0x1F ≠ 0x00 := by decide
  obtain ⟨h1, h2, h3, h4, h5, h6⟩ := rows e
  simp only [decode, opRows, List.filter_cons, OpRow.selected, beq_iff_eq, h1, h2, h3, h4, h5, h6]
  rfl

end Sys2Proof
end

