-- ==== Sys2Proof/Laws/State.lean ====
section
/-! SUPPORT. One lemma per field per update of the registers and of the state, each true by `rfl`, so that no later proof
unfolds a record update. -/

namespace Sys2Proof.Machine

namespace Regs

variable {c : Config} (r : Regs c)

@[simp] theorem writeFlags_flags (f : FlagPair) : (r.writeFlags f).flags = f := rfl
@[simp] theorem writeFlags_intervalNs (f : FlagPair) : (r.writeFlags f).intervalNs = r.intervalNs := rfl
@[simp] theorem writeFlags_tickCnt (f : FlagPair) : (r.writeFlags f).tickCnt = r.tickCnt := rfl
@[simp] theorem writeFlags_armed (f : FlagPair) : (r.writeFlags f).armed = r.armed := rfl
@[simp] theorem writeFlags_warmCnt (f : FlagPair) : (r.writeFlags f).warmCnt = r.warmCnt := rfl
@[simp] theorem writeFlags_pattern (f : FlagPair) : (r.writeFlags f).pattern = r.pattern := rfl
@[simp] theorem writeFlags_latchReq (f : FlagPair) : (r.writeFlags f).latchReq = r.latchReq := rfl
@[simp] theorem writeFlags_samples (f : FlagPair) : (r.writeFlags f).samples = r.samples := rfl
@[simp] theorem writeFlags_ackC (f : FlagPair) : (r.writeFlags f).ackC = r.ackC := rfl
@[simp] theorem writeFlags_ackW (f : FlagPair) : (r.writeFlags f).ackW = r.ackW := rfl
@[simp] theorem writeFlags_report (f : FlagPair) : (r.writeFlags f).report = r.report := rfl

@[simp] theorem writeInterval_flags (v : BitVec c.ivW) : (r.writeInterval v).flags = r.flags := rfl
@[simp] theorem writeInterval_intervalNs (v : BitVec c.ivW) : (r.writeInterval v).intervalNs = v := rfl
@[simp] theorem writeInterval_tickCnt (v : BitVec c.ivW) : (r.writeInterval v).tickCnt = r.tickCnt := rfl
@[simp] theorem writeInterval_armed (v : BitVec c.ivW) : (r.writeInterval v).armed = r.armed := rfl
@[simp] theorem writeInterval_warmCnt (v : BitVec c.ivW) : (r.writeInterval v).warmCnt = r.warmCnt := rfl
@[simp] theorem writeInterval_pattern (v : BitVec c.ivW) : (r.writeInterval v).pattern = r.pattern := rfl
@[simp] theorem writeInterval_latchReq (v : BitVec c.ivW) : (r.writeInterval v).latchReq = r.latchReq := rfl
@[simp] theorem writeInterval_samples (v : BitVec c.ivW) : (r.writeInterval v).samples = r.samples := rfl
@[simp] theorem writeInterval_ackC (v : BitVec c.ivW) : (r.writeInterval v).ackC = r.ackC := rfl
@[simp] theorem writeInterval_ackW (v : BitVec c.ivW) : (r.writeInterval v).ackW = r.ackW := rfl
@[simp] theorem writeInterval_report (v : BitVec c.ivW) : (r.writeInterval v).report = r.report := rfl

@[simp] theorem writeTickCnt_flags (v : BitVec c.tickW) : (r.writeTickCnt v).flags = r.flags := rfl
@[simp] theorem writeTickCnt_intervalNs (v : BitVec c.tickW) : (r.writeTickCnt v).intervalNs = r.intervalNs := rfl
@[simp] theorem writeTickCnt_tickCnt (v : BitVec c.tickW) : (r.writeTickCnt v).tickCnt = v := rfl
@[simp] theorem writeTickCnt_armed (v : BitVec c.tickW) : (r.writeTickCnt v).armed = r.armed := rfl
@[simp] theorem writeTickCnt_warmCnt (v : BitVec c.tickW) : (r.writeTickCnt v).warmCnt = r.warmCnt := rfl
@[simp] theorem writeTickCnt_pattern (v : BitVec c.tickW) : (r.writeTickCnt v).pattern = r.pattern := rfl
@[simp] theorem writeTickCnt_latchReq (v : BitVec c.tickW) : (r.writeTickCnt v).latchReq = r.latchReq := rfl
@[simp] theorem writeTickCnt_samples (v : BitVec c.tickW) : (r.writeTickCnt v).samples = r.samples := rfl
@[simp] theorem writeTickCnt_ackC (v : BitVec c.tickW) : (r.writeTickCnt v).ackC = r.ackC := rfl
@[simp] theorem writeTickCnt_ackW (v : BitVec c.tickW) : (r.writeTickCnt v).ackW = r.ackW := rfl
@[simp] theorem writeTickCnt_report (v : BitVec c.tickW) : (r.writeTickCnt v).report = r.report := rfl

@[simp] theorem writeReport_flags (p : Report c) : (r.writeReport p).flags = r.flags := rfl
@[simp] theorem writeReport_intervalNs (p : Report c) : (r.writeReport p).intervalNs = r.intervalNs := rfl
@[simp] theorem writeReport_tickCnt (p : Report c) : (r.writeReport p).tickCnt = r.tickCnt := rfl
@[simp] theorem writeReport_armed (p : Report c) : (r.writeReport p).armed = r.armed := rfl
@[simp] theorem writeReport_warmCnt (p : Report c) : (r.writeReport p).warmCnt = r.warmCnt := rfl
@[simp] theorem writeReport_pattern (p : Report c) : (r.writeReport p).pattern = r.pattern := rfl
@[simp] theorem writeReport_latchReq (p : Report c) : (r.writeReport p).latchReq = r.latchReq := rfl
@[simp] theorem writeReport_samples (p : Report c) : (r.writeReport p).samples = r.samples := rfl
@[simp] theorem writeReport_ackC (p : Report c) : (r.writeReport p).ackC = r.ackC := rfl
@[simp] theorem writeReport_ackW (p : Report c) : (r.writeReport p).ackW = r.ackW := rfl
@[simp] theorem writeReport_report (p : Report c) : (r.writeReport p).report = p := rfl

@[simp] theorem writeWarmup_flags (a : Bool) (n : BitVec 16) : (r.writeWarmup a n).flags = r.flags := rfl
@[simp] theorem writeWarmup_intervalNs (a : Bool) (n : BitVec 16) : (r.writeWarmup a n).intervalNs = r.intervalNs := rfl
@[simp] theorem writeWarmup_tickCnt (a : Bool) (n : BitVec 16) : (r.writeWarmup a n).tickCnt = r.tickCnt := rfl
@[simp] theorem writeWarmup_armed (a : Bool) (n : BitVec 16) : (r.writeWarmup a n).armed = a := rfl
@[simp] theorem writeWarmup_warmCnt (a : Bool) (n : BitVec 16) : (r.writeWarmup a n).warmCnt = n := rfl
@[simp] theorem writeWarmup_pattern (a : Bool) (n : BitVec 16) : (r.writeWarmup a n).pattern = r.pattern := rfl
@[simp] theorem writeWarmup_latchReq (a : Bool) (n : BitVec 16) : (r.writeWarmup a n).latchReq = r.latchReq := rfl
@[simp] theorem writeWarmup_samples (a : Bool) (n : BitVec 16) : (r.writeWarmup a n).samples = r.samples := rfl
@[simp] theorem writeWarmup_ackC (a : Bool) (n : BitVec 16) : (r.writeWarmup a n).ackC = r.ackC := rfl
@[simp] theorem writeWarmup_ackW (a : Bool) (n : BitVec 16) : (r.writeWarmup a n).ackW = r.ackW := rfl
@[simp] theorem writeWarmup_report (a : Bool) (n : BitVec 16) : (r.writeWarmup a n).report = r.report := rfl

@[simp] theorem writePattern_flags (b : Byte) : (r.writePattern b).flags = r.flags := rfl
@[simp] theorem writePattern_intervalNs (b : Byte) : (r.writePattern b).intervalNs = r.intervalNs := rfl
@[simp] theorem writePattern_tickCnt (b : Byte) : (r.writePattern b).tickCnt = r.tickCnt := rfl
@[simp] theorem writePattern_armed (b : Byte) : (r.writePattern b).armed = r.armed := rfl
@[simp] theorem writePattern_warmCnt (b : Byte) : (r.writePattern b).warmCnt = r.warmCnt := rfl
@[simp] theorem writePattern_pattern (b : Byte) : (r.writePattern b).pattern = b := rfl
@[simp] theorem writePattern_latchReq (b : Byte) : (r.writePattern b).latchReq = true := rfl
@[simp] theorem writePattern_samples (b : Byte) : (r.writePattern b).samples = r.samples := rfl
@[simp] theorem writePattern_ackC (b : Byte) : (r.writePattern b).ackC = r.ackC := rfl
@[simp] theorem writePattern_ackW (b : Byte) : (r.writePattern b).ackW = r.ackW := rfl
@[simp] theorem writePattern_report (b : Byte) : (r.writePattern b).report = r.report := rfl

@[simp] theorem writeSamples_flags (l : Lines) : (r.writeSamples l).flags = r.flags := rfl
@[simp] theorem writeSamples_intervalNs (l : Lines) : (r.writeSamples l).intervalNs = r.intervalNs := rfl
@[simp] theorem writeSamples_tickCnt (l : Lines) : (r.writeSamples l).tickCnt = r.tickCnt := rfl
@[simp] theorem writeSamples_armed (l : Lines) : (r.writeSamples l).armed = r.armed := rfl
@[simp] theorem writeSamples_warmCnt (l : Lines) : (r.writeSamples l).warmCnt = r.warmCnt := rfl
@[simp] theorem writeSamples_pattern (l : Lines) : (r.writeSamples l).pattern = r.pattern := rfl
@[simp] theorem writeSamples_latchReq (l : Lines) : (r.writeSamples l).latchReq = r.latchReq := rfl
@[simp] theorem writeSamples_samples (l : Lines) : (r.writeSamples l).samples = l := rfl
@[simp] theorem writeSamples_ackC (l : Lines) : (r.writeSamples l).ackC = r.ackC := rfl
@[simp] theorem writeSamples_ackW (l : Lines) : (r.writeSamples l).ackW = r.ackW := rfl
@[simp] theorem writeSamples_report (l : Lines) : (r.writeSamples l).report = r.report := rfl

@[simp] theorem writeAckC_flags (b : Bool) : (r.writeAckC b).flags = r.flags := rfl
@[simp] theorem writeAckC_intervalNs (b : Bool) : (r.writeAckC b).intervalNs = r.intervalNs := rfl
@[simp] theorem writeAckC_tickCnt (b : Bool) : (r.writeAckC b).tickCnt = r.tickCnt := rfl
@[simp] theorem writeAckC_armed (b : Bool) : (r.writeAckC b).armed = r.armed := rfl
@[simp] theorem writeAckC_warmCnt (b : Bool) : (r.writeAckC b).warmCnt = r.warmCnt := rfl
@[simp] theorem writeAckC_pattern (b : Bool) : (r.writeAckC b).pattern = r.pattern := rfl
@[simp] theorem writeAckC_latchReq (b : Bool) : (r.writeAckC b).latchReq = r.latchReq := rfl
@[simp] theorem writeAckC_samples (b : Bool) : (r.writeAckC b).samples = r.samples := rfl
@[simp] theorem writeAckC_ackC (b : Bool) : (r.writeAckC b).ackC = b := rfl
@[simp] theorem writeAckC_ackW (b : Bool) : (r.writeAckC b).ackW = r.ackW := rfl
@[simp] theorem writeAckC_report (b : Bool) : (r.writeAckC b).report = r.report := rfl

@[simp] theorem writeAckW_flags (b : Bool) : (r.writeAckW b).flags = r.flags := rfl
@[simp] theorem writeAckW_intervalNs (b : Bool) : (r.writeAckW b).intervalNs = r.intervalNs := rfl
@[simp] theorem writeAckW_tickCnt (b : Bool) : (r.writeAckW b).tickCnt = r.tickCnt := rfl
@[simp] theorem writeAckW_armed (b : Bool) : (r.writeAckW b).armed = r.armed := rfl
@[simp] theorem writeAckW_warmCnt (b : Bool) : (r.writeAckW b).warmCnt = r.warmCnt := rfl
@[simp] theorem writeAckW_pattern (b : Bool) : (r.writeAckW b).pattern = r.pattern := rfl
@[simp] theorem writeAckW_latchReq (b : Bool) : (r.writeAckW b).latchReq = r.latchReq := rfl
@[simp] theorem writeAckW_samples (b : Bool) : (r.writeAckW b).samples = r.samples := rfl
@[simp] theorem writeAckW_ackC (b : Bool) : (r.writeAckW b).ackC = r.ackC := rfl
@[simp] theorem writeAckW_ackW (b : Bool) : (r.writeAckW b).ackW = b := rfl
@[simp] theorem writeAckW_report (b : Bool) : (r.writeAckW b).report = r.report := rfl

@[simp] theorem clearPulses_flags : r.clearPulses.flags = r.flags := rfl
@[simp] theorem clearPulses_intervalNs : r.clearPulses.intervalNs = r.intervalNs := rfl
@[simp] theorem clearPulses_tickCnt : r.clearPulses.tickCnt = r.tickCnt := rfl
@[simp] theorem clearPulses_armed : r.clearPulses.armed = r.armed := rfl
@[simp] theorem clearPulses_warmCnt : r.clearPulses.warmCnt = r.warmCnt := rfl
@[simp] theorem clearPulses_pattern : r.clearPulses.pattern = r.pattern := rfl
@[simp] theorem clearPulses_latchReq : r.clearPulses.latchReq = r.latchReq := rfl
@[simp] theorem clearPulses_samples : r.clearPulses.samples = r.samples := rfl
@[simp] theorem clearPulses_ackC : r.clearPulses.ackC = false := rfl
@[simp] theorem clearPulses_ackW : r.clearPulses.ackW = false := rfl
@[simp] theorem clearPulses_report : r.clearPulses.report = ⟨false, 0, 0⟩ := rfl

end Regs

namespace State

variable (s : State)

@[simp] theorem setRegs_cfg (r : Regs s.cfg) : (s.setRegs r).cfg = s.cfg := rfl
@[simp] theorem setRegs_regs (r : Regs s.cfg) : (s.setRegs r).regs = r := rfl
@[simp] theorem setRegs_pending (r : Regs s.cfg) : (s.setRegs r).pending = s.pending := rfl
@[simp] theorem setRegs_freeCount (r : Regs s.cfg) : (s.setRegs r).freeCount = s.freeCount := rfl
@[simp] theorem setRegs_wires (r : Regs s.cfg) : (s.setRegs r).wires = s.wires := rfl

@[simp] theorem setEdge_cfg (e : EdgeVector) : (s.setEdge e).cfg = s.cfg := rfl
@[simp] theorem setEdge_regs (e : EdgeVector) : (s.setEdge e).regs = s.regs := rfl
@[simp] theorem setEdge_pending (e : EdgeVector) : (s.setEdge e).pending = s.pending := rfl
@[simp] theorem setEdge_freeCount (e : EdgeVector) : (s.setEdge e).freeCount = s.freeCount := rfl
@[simp] theorem setEdge_wires (e : EdgeVector) : (s.setEdge e).wires = { s.wires with edge := e } := rfl

@[simp] theorem setRomData_cfg (b : Byte) : (s.setRomData b).cfg = s.cfg := rfl
@[simp] theorem setRomData_regs (b : Byte) : (s.setRomData b).regs = s.regs := rfl
@[simp] theorem setRomData_pending (b : Byte) : (s.setRomData b).pending = s.pending := rfl
@[simp] theorem setRomData_freeCount (b : Byte) : (s.setRomData b).freeCount = s.freeCount := rfl
@[simp] theorem setRomData_wires (b : Byte) : (s.setRomData b).wires = { s.wires with romData := b } := rfl

@[simp] theorem readRom_cfg (a : HallCode) : (s.readRom a).cfg = s.cfg := rfl
@[simp] theorem readRom_regs (a : HallCode) : (s.readRom a).regs = s.regs := rfl
@[simp] theorem readRom_pending (a : HallCode) : (s.readRom a).pending = s.pending := rfl
@[simp] theorem readRom_freeCount (a : HallCode) : (s.readRom a).freeCount = s.freeCount := rfl
@[simp] theorem readRom_wires (a : HallCode) : (s.readRom a).wires = { s.wires with romData := rom a } := rfl

@[simp] theorem openCycle_cfg : s.openCycle.cfg = s.cfg := rfl
@[simp] theorem openCycle_regs : s.openCycle.regs = s.regs.clearPulses := rfl
@[simp] theorem openCycle_pending : s.openCycle.pending = s.pending := rfl
@[simp] theorem openCycle_freeCount : s.openCycle.freeCount = s.freeCount := rfl
@[simp] theorem openCycle_wires : s.openCycle.wires = s.wires := rfl

@[simp] theorem closeCycle_cfg : s.closeCycle.cfg = s.cfg := rfl
@[simp] theorem closeCycle_regs : s.closeCycle.regs = s.regs := rfl
@[simp] theorem closeCycle_pending : s.closeCycle.pending = s.pending := rfl
@[simp] theorem closeCycle_freeCount : s.closeCycle.freeCount = s.freeCount := rfl
@[simp] theorem closeCycle_wires : s.closeCycle.wires = Wires.idle := rfl

end State

end Sys2Proof.Machine
end

