-- ==== Sys2Proof/Laws/Ops.lean ====
section
/-! SUPPORT. One lemma per shared operation, saying once everything it can do. -/

namespace Sys2Proof.Machine

/-! ### Running operations -/

@[simp] theorem andThen_next (s : State) (f : State → Result) : andThen (.next s) f = f s := rfl

@[simp] theorem andThen_refused (q : Refusal) (f : State → Result) : andThen (.refused q) f = .refused q := rfl

/-- If a sequence of two answers a next state, so did the first, and the second from there. -/
theorem andThen_eq_next {o : Result} {f : State → Result} {t : State} (h : andThen o f = .next t) :
    ∃ s, o = .next s ∧ f s = .next t := by
  cases o with
  | next s => exact ⟨s, rfl, h⟩
  | fault r => cases r
  | refused q => cases h

@[simp] theorem runOps_nil (s : State) : runOps [] s = .next s := rfl

@[simp] theorem runOps_cons (i : Instr) (is : List Instr) (s : State) :
    runOps (i :: is) s = andThen (exec i s) (runOps is) := rfl

/-- A run of two lists is the run of the first and then of the second. -/
theorem runOps_append (is js : List Instr) (s : State) :
    runOps (is ++ js) s = andThen (runOps is s) (runOps js) := by
  induction is generalizing s with
  | nil => rfl
  | cons i is ih =>
    simp only [List.cons_append, runOps_cons]
    cases exec i s with
    | next t => exact ih t
    | fault r => cases r
    | refused q => rfl

/-! ### The flags and the report (R151 to R154) -/

@[simp] theorem evaluate_correct {c : Config} (iv : BitVec c.ivW) :
    evaluate ⟨true, false⟩ iv = (⟨false, false⟩, ⟨true, 1, iv⟩) := rfl

@[simp] theorem evaluate_wrong {c : Config} (iv : BitVec c.ivW) :
    evaluate ⟨false, true⟩ iv = (⟨false, false⟩, ⟨true, 2, 0⟩) := rfl

@[simp] theorem evaluate_both {c : Config} (iv : BitVec c.ivW) :
    evaluate ⟨true, true⟩ iv = (⟨true, true⟩, ⟨false, 0, 0⟩) := rfl

@[simp] theorem evaluate_none {c : Config} (iv : BitVec c.ivW) :
    evaluate ⟨false, false⟩ iv = (⟨false, false⟩, ⟨false, 0, 0⟩) := rfl

/-! ### The counters (R150, R185) -/

@[simp] theorem tickStep_idle (c : Config) (f : FlagPair) (iv : BitVec c.ivW) (t : BitVec c.tickW) :
    tickStep c false f iv t = ⟨f, t, ⟨false, 0, 0⟩⟩ := rfl

theorem tickStep_below {c : Config} (f : FlagPair) (iv : BitVec c.ivW) {t : BitVec c.tickW}
    (h : (t + 1).toNat ≠ c.pReport) : tickStep c true f iv t = ⟨f, t + 1, ⟨false, 0, 0⟩⟩ := by
  simp only [tickStep, if_neg h]; rfl

theorem tickStep_boundary {c : Config} (f : FlagPair) (iv : BitVec c.ivW) {t : BitVec c.tickW}
    (h : (t + 1).toNat = c.pReport) : tickStep c true f iv t = ⟨(evaluate f iv).1, 0, (evaluate f iv).2⟩ := by
  simp only [tickStep, if_pos h]; rfl

@[simp] theorem warmStep_idle (c : Config) (a : Bool) (n : BitVec 16) : warmStep c false a n = (a, n) := rfl

@[simp] theorem warmStep_armed (c : Config) (pe : Bool) (n : BitVec 16) : warmStep c pe true n = (true, n) := by
  cases pe <;> rfl

theorem warmStep_below {c : Config} {n : BitVec 16} (h : (n + 1).toNat ≠ c.warmupPulses) :
    warmStep c true false n = (false, n + 1) := by
  simp only [warmStep, if_neg h]; rfl

theorem warmStep_last {c : Config} {n : BitVec 16} (h : (n + 1).toNat = c.warmupPulses) :
    warmStep c true false n = (true, n + 1) := by
  simp only [warmStep, if_pos h]; rfl

/-! ### The operand and the product (R86, R129) -/

/-- The product of a port value, without the detour over its number. -/
theorem intervalProduct_of_port {c : Config} (k : BitVec c.capW) :
    intervalProduct c k.toNat = k.setWidth c.ivW * BitVec.ofNat c.ivW c.nsPerTick := by
  simp [intervalProduct, capturedOperand, nsPerTickOperand]

/-! ### The ROM (R100) -/

/-- R105: through the fallback the ROM only ever gives one of its six valid entries. -/
theorem rom_subst (h : HallCode) :
    rom (subst h) = 0x19 ∨ rom (subst h) = 0x32 ∨ rom (subst h) = 0x13 ∨ rom (subst h) = 0x2C ∨
    rom (subst h) = 0x0D ∨ rom (subst h) = 0x26 := by
  revert h; decide

/-! ### Taking a word -/

@[simp] theorem afterFetch_cfg (s : State) : s.afterFetch.cfg = s.cfg := by
  unfold State.afterFetch; cases s.pending <;> rfl

@[simp] theorem fetchWord_queued (c : Config) (r : Regs c) (w : Ciw c) (ws : List (Ciw c)) (n : Nat) (x : Wires) :
    State.fetchWord ⟨c, r, w :: ws, n, x⟩ = w := rfl

@[simp] theorem afterFetch_queued (c : Config) (r : Regs c) (w : Ciw c) (ws : List (Ciw c)) (n : Nat) (x : Wires) :
    State.afterFetch ⟨c, r, w :: ws, n, x⟩ = ⟨c, r, ws, n, x⟩ := rfl

@[simp] theorem afterFetch_free (c : Config) (r : Regs c) (n : Nat) (x : Wires) :
    State.afterFetch ⟨c, r, [], n, x⟩ = ⟨c, r, [], n + 1, x⟩ := rfl

/-! ### What any operation can do -/

/-- Every operation answers a next state, and touches the registers and the wires alone: not the configuration, not
the environment. -/
theorem exec_next (i : Instr) (s : State) :
    ∃ (r : Regs s.cfg) (x : Wires), exec i s = .next ⟨s.cfg, r, s.pending, s.freeCount, x⟩ := by
  cases i <;> exact ⟨_, _, rfl⟩

/-- So does every run of operations. -/
theorem runOps_next (is : List Instr) : ∀ s : State,
    ∃ (r : Regs s.cfg) (x : Wires), runOps is s = .next ⟨s.cfg, r, s.pending, s.freeCount, x⟩ := by
  induction is with
  | nil => exact fun s => ⟨s.regs, s.wires, rfl⟩
  | cons i is ih =>
    intro s
    obtain ⟨r, x, h⟩ := exec_next i s
    obtain ⟨r', x', h'⟩ := ih ⟨s.cfg, r, s.pending, s.freeCount, x⟩
    exact ⟨r', x', by rw [runOps_cons, h, andThen_next, h']⟩

/-! ### The trace notation -/

/-- What `readTicks` can answer: the number read, if the port holds it (log 13). -/
theorem readTicks_eq_some {c : Config} {cs : List Char} {k : Nat} :
    readTicks c cs = some k ↔ readNum cs = some k ∧ k < 2 ^ c.capW := by
  unfold readTicks
  cases readNum cs with
  | none => simp
  | some n =>
    simp only [Option.bind_some, Option.some.injEq]
    split <;> simp only [Option.some.injEq, reduceCtorEq, false_iff, not_and] <;> grind

end Sys2Proof.Machine
end

