-- ==== Sys2Proof/Laws/PerInstr.lean ====
section
/-! SUPPORT. Facts about each operation as syntax, one lemma per constructor. -/

namespace Sys2Proof.Laws.RowOfTable

/-- The match and mask of the operation's row in the table of R78, written out once more beside the decoder's own. -/
def bits : Instr → Selector × Selector
  | .reset => (0x10, 0x10)
  | .edgeSample _ => (0x00, 0x10)
  | .patUpdate _ => (0x00, 0x10)
  | .romRead _ => (0x00, 0x10)
  | .evTick => (0x04, 0x14)
  | .evCorrect _ => (0x01, 0x11)
  | .evWrong => (0x02, 0x12)
  | .evWarmup => (0x08, 0x18)
  | .idle => (0x00, 0x1F)

/-- Every row of the decoder's table that has the operation's name has its match and mask, whatever the inputs, and
there is one. -/
def Statement (i : Instr) : Prop :=
  ∀ (c : Config) (inp : Inputs c),
    ((opRows inp).filter (fun row => row.op.mnemonic == i.mnemonic)).map (fun row => (row.pattern, row.mask)) = [bits i]

theorem reset : Statement .reset := fun _ _ => rfl

theorem edgeSample (lines : Lines) : Statement (.edgeSample lines) := fun _ _ => rfl

theorem patUpdate (hall : HallCode) : Statement (.patUpdate hall) := fun _ _ => rfl

theorem romRead (addr : HallCode) : Statement (.romRead addr) := fun _ _ => rfl

theorem evTick : Statement .evTick := fun _ _ => rfl

theorem evCorrect (ticks : Nat) : Statement (.evCorrect ticks) := fun _ _ => rfl

theorem evWrong : Statement .evWrong := fun _ _ => rfl

theorem evWarmup : Statement .evWarmup := fun _ _ => rfl

theorem idle : Statement .idle := fun _ _ => rfl

end Sys2Proof.Laws.RowOfTable
end

