-- ==== Sys2Proof/Tests/Slice0.lean ====
section
/-! SUPPORT. The model's own tests. Expected values come from the spec: its encodings (R72, R78) and the vectors of
95_test_vectors.md, named beside each test. Then, for every statement with hypotheses, a concrete state that meets them. -/

open Sys2Proof Sys2Proof.Machine

namespace Sys2Proof.Tests

/-! ### WellFormed refuses -/

/-- `captured_ticks` is a 16-bit port at the default (R9). -/
theorem test_captured_ticks_too_wide_is_ill_formed :
    Instr.wellFormed Config.default (.evCorrect 65536) = false ∧
    Instr.wellFormed Config.default (.evCorrect 65535) = true := by decide

/-- ROM_READ is never issued at a sentinel address (R105). -/
theorem test_sentinel_rom_read_is_ill_formed :
    Instr.wellFormed Config.default (.romRead 0) = false ∧ Instr.wellFormed Config.default (.romRead 7) = false ∧
    Instr.wellFormed Config.default (.romRead 6) = true := by decide

/-- A number of 25 bits is no CIW at `CAP_W = 16` (R72). -/
theorem test_number_wider_than_ciw_is_rejected :
    ciwOfNat Config.default 0x1000000 = .error .widerThanCiw := by rfl

/-! ### Illegal configurations (R7 to R12), one for each range -/

theorem test_each_range_is_checked :
    Config.legal { Config.default with pReport := 0 } = false ∧
    Config.legal { Config.default with pReport := 65536 } = false ∧
    Config.legal { Config.default with nsPerTick := 2 ^ 32 } = false ∧
    Config.legal { Config.default with capW := 0 } = false ∧ Config.legal { Config.default with capW := 33 } = false ∧
    Config.legal { Config.default with ivW := 0, nsPerTick := 0 } = false ∧
    Config.legal { Config.default with ivW := 65 } = false ∧
    Config.legal { Config.default with tickW := 0, pReport := 1 } = false ∧
    Config.legal { Config.default with tickW := 33 } = false ∧
    Config.legal { Config.default with warmupPulses := 65536 } = false ∧
    Config.legal Config.default = true := by decide

/-! ### Decoding words written out bit by bit: `KKKKKKKKKKKKKKKKRPTWCHHH` (R72) -/

/-- RESET: R = 1 (95_test_vectors.md program 1, cycle 0). -/
theorem test_decode_reset :
    decodeWord (c := Config.default) Lines.low 0b000000000000000010000001 = [.reset] := by decide

/-- EV_CORRECT with K = 250, beside EDGE_SAMPLE, ROM_READ and PAT_UPDATE: `C k=250 h=1` (R84's example). -/
theorem test_decode_correct :
    decodeWord (c := Config.default) Lines.low 0b000000001111101000001001 =
      [.edgeSample ⟨true, false, false, false⟩, .evCorrect 250, .romRead 1, .patUpdate 1] := by decide

/-- EV_WRONG: W = 1 and H = 5 (program 2, cycle 1). -/
theorem test_decode_wrong :
    decodeWord (c := Config.default) Lines.low 0b000000000000000000010101 =
      [.edgeSample ⟨false, true, false, false⟩, .evWrong, .romRead 5, .patUpdate 5] := by decide

/-- EV_TICK: T = 1 and H = 3 (program 1, cycle 4). -/
theorem test_decode_tick :
    decodeWord (c := Config.default) Lines.low 0b000000000000000000100011 =
      [.edgeSample ⟨false, false, true, false⟩, .evTick, .romRead 3, .patUpdate 3] := by decide

/-- EV_WARMUP: P = 1 (program 3, cycle 1); the sentinel code 0 is read at address 1. -/
theorem test_decode_warmup :
    decodeWord (c := Config.default) Lines.low 0b000000000000000001000000 =
      [.edgeSample ⟨false, false, false, true⟩, .evWarmup, .romRead 1, .patUpdate 0] := by decide

/-- IDLE: all four lines held at 1 from the cycle before (R128's corner case). -/
theorem test_decode_held_lines_are_idle :
    decodeWord (c := Config.default) ⟨true, true, true, true⟩ 0b000000000000000001111110 =
      [.edgeSample ⟨true, true, true, true⟩, .idle, .romRead 6, .patUpdate 6] := by decide

/-- All four events in one cycle, in the order of R216. -/
theorem test_decode_all_events :
    decodeWord (c := Config.default) Lines.low 0b000000000000001101111001 =
      [.edgeSample ⟨true, true, true, true⟩, .evTick, .evCorrect 3, .evWrong, .evWarmup, .romRead 1, .patUpdate 1] := by
  decide

/-- Encoding, against the CIWs of 95_test_vectors.md: `C k=250` with `hall_in` 0, `W`, `T`, `P`, `RST`. -/
theorem test_encode :
    encode Config.default (.evCorrect 250) = 0x00FA08 ∧ encode Config.default .evWrong = 0x000010 ∧
    encode Config.default .evTick = 0x000020 ∧ encode Config.default .evWarmup = 0x000040 ∧
    encode Config.default .reset = 0x000080 ∧ encode Config.default (.patUpdate 6) = 0x000006 := by decide

/-- The reader of the trace notation: R84's example, and what its grammar refuses (letters out of order). -/
theorem test_read_line :
    readLine Config.default ['C', ' ', 'k', '=', '2', '5', '0', ' ', 'h', '=', '1'] =
      some ⟨false, ⟨true, false, false, false⟩, 250, some 1⟩ ∧
    readLine Config.default ['R', 'S', 'T', ' ', 'h', '=', '5', ';', 'x'] = some ⟨true, Lines.low, 0, some 5⟩ ∧
    readLine Config.default ['T', 'C'] = none ∧
    readPseudo Config.default ['E', 'V', 'C', ' ', '0', 'x', 'F', 'a'] = some (.evc 250) := by decide

/-- The model's choice of log 13: 65535 fits `captured_ticks` at `CAP_W = 16`, and 65536 is refused in `k=` and in
`EVC` alike. -/
theorem test_read_oversize_ticks :
    readPseudo Config.default ['E', 'V', 'C', ' ', '6', '5', '5', '3', '5'] = some (.evc 65535) ∧
    readPseudo Config.default ['E', 'V', 'C', ' ', '6', '5', '5', '3', '6'] = none ∧
    readLine Config.default ['C', ' ', 'k', '=', '6', '5', '5', '3', '6'] = none := by decide

/-- Program 2's first four lines (95_test_vectors.md): `RST h=5`, `W`, `T`, `C k=100 h=1`. -/
theorem test_assemble_program2 :
    assemble Config.default
      [⟨true, Lines.low, 0, some 5⟩, ⟨false, ⟨false, true, false, false⟩, 0, none⟩,
        ⟨false, ⟨false, false, true, false⟩, 0, none⟩, ⟨false, ⟨true, false, false, false⟩, 100, some 1⟩] =
      [0x000085, 0x000015, 0x000025, 0x006409] := by decide

/-! ### One step on a small state -/

/-- A state of configuration `c` with the word `w` at its input ports. -/
def at' (c : Config) (r : Regs c) (w : Nat) : State := ⟨c, r, [BitVec.ofNat _ w], 0, Wires.idle⟩

/-- Whether the step (or operation) answers a next state of which `p` holds. -/
def gives (o : Host.Outcome State Fault Refusal) (p : State → Bool) : Bool :=
  match o with
  | .next t => p t
  | .fault _ => false
  | .refused _ => false

/-- The vectors' configuration, with P_REPORT = 3 (95_test_vectors.md sections 2.3, 2.6, 2.7). -/
def cfg3 : Config := { Config.default with pReport := 3 }

/-- Flags, interval and counter as given, all else at reset. -/
def regs3 (c w : Bool) (iv tc : Nat) : Regs cfg3 :=
  { Regs.reset cfg3 with flags := ⟨c, w⟩, intervalNs := BitVec.ofNat _ iv, tickCnt := BitVec.ofNat _ tc }

/-- The registers a test looks at: flags, interval, counter. -/
def core4 (t : State) : Bool × Bool × Nat × Nat :=
  (t.regs.flags.correct, t.regs.flags.wrong, t.regs.intervalNs.toNat, t.regs.tickCnt.toNat)

/-- The report triple. -/
def report3 (t : State) : Bool × Nat × Nat :=
  (t.regs.report.valid, t.regs.report.kind.toNat, t.regs.report.value.toNat)

/-- 2.4: 250 ticks of 1000 ns (R122's example), with the acknowledge and the pattern of code 1 (program 1, cycle 1). -/
theorem test_step_correct :
    gives (step (at' cfg3 (Regs.reset cfg3) 0x00FA09)) (fun t =>
      core4 t == (true, false, 250000, 0) && t.regs.ackC && !t.regs.ackW && t.regs.pattern == 0x19 &&
      t.regs.latchReq && t.regs.samples == ⟨true, false, false, false⟩ && t.pending.isEmpty) = true := by decide

/-- 2.4: 65535 * 131072 wraps to 0xFFFE0000. -/
theorem test_exec_correct_wraps :
    gives (exec (.evCorrect 65535) (at' { cfg3 with nsPerTick := 131072 } (Regs.reset _) 0))
      (fun t => core4 t == (true, false, 0xFFFE0000, 0)) = true := by decide

/-- 2.4: at IV_W = 16, 1000 * 1000 wraps to 16960. -/
theorem test_exec_correct_narrow :
    gives (exec (.evCorrect 1000) (at' { cfg3 with ivW := 16 } (Regs.reset _) 0))
      (fun t => core4 t == (true, false, 16960, 0)) = true := by decide

/-- 2.5: (1, 0, 250000) gives (0, 1, 250000) with ACKW. -/
theorem test_exec_wrong :
    gives (exec .evWrong (at' cfg3 (regs3 true false 250000 0) 0))
      (fun t => core4 t == (false, true, 250000, 0) && t.regs.ackW) = true := by decide

/-- 2.6: `CW k=10 h=1`: the wrong event writes the flags last. -/
theorem test_step_correct_and_wrong :
    gives (step (at' cfg3 (Regs.reset cfg3) 0x000A19))
      (fun t => core4 t == (false, true, 10000, 0) && t.regs.ackC && t.regs.ackW) = true := by decide

/-- 2.6: `WT h=1` on the boundary: the report is of the pre-state, then the wrong event. -/
theorem test_step_tick_and_wrong :
    gives (step (at' cfg3 (regs3 true false 42 2) 0x000031))
      (fun t => core4 t == (false, true, 42, 0) && report3 t == (true, 1, 42)) = true := by decide

/-- 2.6: `CT k=3 h=1` on the boundary: the old interval is reported. -/
theorem test_step_tick_and_correct :
    gives (step (at' cfg3 (regs3 true false 42 2) 0x000329))
      (fun t => core4 t == (true, false, 3000, 0) && report3 t == (true, 1, 42)) = true := by decide

/-- 2.7: a boundary tick with the wrong flag. -/
theorem test_exec_tick_reports_wrong :
    gives (exec .evTick (at' cfg3 (regs3 false true 9 2) 0))
      (fun t => core4 t == (false, false, 9, 0) && report3 t == (true, 2, 0)) = true := by decide

/-- 2.7: both flags set (not reachable): no report, flags kept, counter restarted. -/
theorem test_exec_tick_ambiguous :
    gives (exec .evTick (at' cfg3 (regs3 true true 5 2) 0))
      (fun t => core4 t == (true, true, 5, 0) && report3 t == (false, 0, 0)) = true := by decide

/-- 2.2: `hall_in = 7` is substituted; `hall_in = 6` gives 0x26. -/
theorem test_exec_pat_update :
    gives (exec (.patUpdate 7) (at' cfg3 (Regs.reset cfg3) 0)) (fun t => t.regs.pattern == 0x19) = true ∧
    gives (exec (.patUpdate 6) (at' cfg3 (Regs.reset cfg3) 0))
      (fun t => t.regs.pattern == 0x26 && t.regs.latchReq) = true := by decide

/-- 2.1: ROM_READ at 4 and at the sentinel 7. -/
theorem test_exec_rom_read :
    gives (exec (.romRead 4) (at' cfg3 (Regs.reset cfg3) 0)) (fun t => t.wires.romData == 0x2C) = true ∧
    gives (exec (.romRead 7) (at' cfg3 (Regs.reset cfg3) 0)) (fun t => t.wires.romData == 0x00) = true := by decide

/-- R120's example: a line at 1 whose sample is 0 is an event, and one whose sample is 1 is none. -/
theorem test_exec_edge_sample :
    gives (exec (.edgeSample ⟨true, true, false, false⟩)
        (at' cfg3 { Regs.reset cfg3 with samples := ⟨false, true, true, false⟩ } 0))
      (fun t => t.wires.edge == 0b0001 && t.regs.samples == ⟨true, true, false, false⟩) = true := by decide

/-- 2.8: WARMUP_PULSES = 2, (0, 1) gives (1, 2), and (1, 2) stays. -/
theorem test_exec_warmup :
    gives (exec .evWarmup (at' { cfg3 with warmupPulses := 2 } { Regs.reset _ with armed := false, warmCnt := 1 } 0))
      (fun t => t.regs.armed && t.regs.warmCnt == 2) = true ∧
    gives (exec .evWarmup (at' { cfg3 with warmupPulses := 2 } { Regs.reset _ with armed := true, warmCnt := 2 } 0))
      (fun t => t.regs.armed && t.regs.warmCnt == 2) = true := by decide

/-- 2.9: an `N` cycle from (1, 0, 7, 1) with ACKC = 1. -/
theorem test_step_idle :
    gives (step (at' cfg3 { regs3 true false 7 1 with ackC := true } 0x000001))
      (fun t => core4 t == (true, false, 7, 1) && !t.regs.ackC && report3 t == (false, 0, 0)) = true := by decide

/-- 2.2's corner case and 2.9: a reset cycle with `hall_in = 6` and every line at 1, WARMUP_PULSES = 2. -/
theorem test_step_reset :
    gives (step (at' { cfg3 with warmupPulses := 2 } { Regs.reset _ with armed := true, tickCnt := 2 } 0x0000FE))
      (fun t => t.regs == { Regs.reset t.cfg with armed := false } && t.regs.pattern == 0x19) = true := by decide

/-- The host's view of a table word: after reset the word of EV_WARMUP runs it. -/
theorem test_with_fetch_word :
    gives (step (State.withFetchWord (State.resetFor { cfg3 with warmupPulses := 2 }) 8 0x08))
      (fun t => t.regs.warmCnt == 1) = true := by decide

/-! ### Witnesses: the hypotheses of the statements can be met together -/

/-- A list of words without a reset, by looking at each. -/
theorem notReset_of_all {c : Config} {ws : List (Ciw c)} (h : ws.all (fun w => !(Inputs.ofCiw w).rst) = true) :
    ∀ w ∈ ws, notReset w := by
  intro w hw
  simpa using List.all_eq_true.1 h w hw

/-- Samples, as a word that is no event any more needs them. -/
def heldCorrect : Regs cfg3 := { Regs.reset cfg3 with samples := ⟨true, false, false, false⟩ }

theorem witness_DecodeOfEncode :
    Instr.wellFormed cfg3 (.evCorrect 65535) = true ∧ Instr.wellFormed cfg3 (.romRead 1) = true := by decide

theorem witness_TableWordRunsNext : 31 < 32 ∧ State.reset.cfg.legal = true := by decide

/-- For StepRunsDecodedOperations, StepIsTheFunctionOfR79, UndrivenCycleReadsAFreeWord, EveryInputHasANextState,
LatchAndAcknowledgeStates, ArmedGatesNothing and EdgeSampleComputesAndRecords: a legal configuration; the last needs a
reset and a non-reset word. -/
theorem witness_legal :
    cfg3.legal = true ∧ notReset (c := cfg3) 0x000001 ∧ (Inputs.ofCiw (c := cfg3) 0x000081).rst = true := by decide

theorem witness_IllegalConfigurationRefused_illegal :
    ¬(1 ≤ ({ cfg3 with pReport := 0 } : Config).pReport) := by decide

theorem witness_IllegalConfigurationRefused_legal :
    1 ≤ cfg3.pReport ∧ cfg3.pReport ≤ 2 ^ cfg3.tickW - 1 ∧ cfg3.nsPerTick ≤ 2 ^ cfg3.ivW - 1 ∧
    1 ≤ cfg3.capW ∧ cfg3.capW ≤ 32 ∧ 1 ≤ cfg3.ivW ∧ cfg3.ivW ≤ 64 ∧ 1 ≤ cfg3.tickW ∧ cfg3.tickW ≤ 32 ∧
    cfg3.warmupPulses ≤ 65535 := by decide

theorem witness_ResetSetsEveryRegister :
    cfg3.legal = true ∧ (Inputs.ofCiw (c := cfg3) 0x0000FE).rst = true ∧ notReset (c := cfg3) 0x000021 ∧
    ({ regs3 true false 9 1 with armed := true } : Regs cfg3).armed = true ∧
    tickEvent (regs3 true false 9 1) 0x000001 = false ∧ tickEvent (regs3 true false 9 1) 0x000021 = true ∧
    ¬atBoundary (regs3 true false 9 1) := by decide

theorem witness_EventsInAResetCycleAreNotRemembered :
    cfg3.legal = true ∧ (Inputs.ofCiw (c := cfg3) 0x000089).rst = true ∧ notReset (c := cfg3) 0x000509 ∧
    notReset (c := cfg3) 0x000061 ∧ (ciwLines (c := cfg3) 0x000061).tick = true ∧ cfg3.pReport ≠ 1 ∧
    (ciwLines (c := cfg3) 0x000061).warmup = true ∧ ({ cfg3 with warmupPulses := 2 } : Config).warmupPulses ≠ 0 ∧
    (ciwLines (c := cfg3) 0x000509).tick = false ∧ (ciwLines (c := cfg3) 0x000509).warmup = false := by decide

theorem witness_CorrectEventSetsFlagAndInterval :
    65535 < 2 ^ cfg3.capW ∧ cfg3.legal = true ∧ notReset (c := cfg3) 0x00FA09 ∧
    correctEvent (Regs.reset cfg3) 0x00FA09 = true ∧ wrongEvent (Regs.reset cfg3) 0x00FA09 = false := by decide

theorem witness_WrongEventSetsFlag :
    cfg3.legal = true ∧ notReset (c := cfg3) 0x000015 ∧ wrongEvent (Regs.reset cfg3) 0x000015 = true ∧
    correctEvent (Regs.reset cfg3) 0x000015 = false := by decide

theorem witness_WrongAfterCorrectInOneCycle :
    cfg3.legal = true ∧ notReset (c := cfg3) 0x000A19 ∧ correctEvent (Regs.reset cfg3) 0x000A19 = true ∧
    wrongEvent (Regs.reset cfg3) 0x000A19 = true := by decide

/-- One word for each of the four clauses: a wrong event, a correct one, a boundary tick alone, no event. -/
theorem witness_EventOverridesReportClear :
    cfg3.legal = true ∧ notReset (c := cfg3) 0x000031 ∧ wrongEvent (regs3 true false 42 2) 0x000031 = true ∧
    notReset (c := cfg3) 0x000329 ∧ wrongEvent (regs3 true false 42 2) 0x000329 = false ∧
    correctEvent (regs3 true false 42 2) 0x000329 = true ∧
    notReset (c := cfg3) 0x000021 ∧ wrongEvent (regs3 true false 42 2) 0x000021 = false ∧
    correctEvent (regs3 true false 42 2) 0x000021 = false ∧ tickEvent (regs3 true false 42 2) 0x000021 = true ∧
    atBoundary (regs3 true false 42 2) ∧
    notReset (c := cfg3) 0x000001 ∧ wrongEvent (regs3 true false 42 1) 0x000001 = false ∧
    correctEvent (regs3 true false 42 1) 0x000001 = false ∧
    ¬(tickEvent (regs3 true false 42 1) 0x000001 = true ∧ atBoundary (regs3 true false 42 1)) := by decide

theorem witness_AcknowledgeFollowsEvent :
    cfg3.legal = true ∧ notReset (c := cfg3) 0x000A19 ∧ correctEvent (Regs.reset cfg3) 0x000A19 = true ∧
    wrongEvent (Regs.reset cfg3) 0x000A19 = true := by decide

theorem witness_CycleIsTheSoftwareOrder : cfg3.legal = true ∧ notReset (c := cfg3) 0x000379 := by decide

theorem witness_IdleHoldsEverythingElse :
    cfg3.legal = true ∧ notReset (c := cfg3) 0x00FA0B ∧ correctEvent heldCorrect 0x00FA0B = false ∧
    wrongEvent heldCorrect 0x00FA0B = false ∧ tickEvent heldCorrect 0x00FA0B = false ∧
    warmupEvent heldCorrect 0x00FA0B = false := by decide

theorem witness_IntervalProductModuloWidth :
    65535 < 2 ^ cfg3.capW ∧ cfg3.capW = 16 ∧ cfg3.ivW = 32 ∧ cfg3.nsPerTick ≤ 65537 := by decide

/-- Two words that differ in `captured_ticks` alone: in a reset cycle, and with the line held. -/
theorem witness_CapturedTicksIgnoredWithoutCorrectEvent :
    cfg3.legal = true ∧
    (Inputs.ofCiw (c := cfg3) 0x00020B).hall = (Inputs.ofCiw (c := cfg3) 0x00FA0B).hall ∧
    ciwLines (c := cfg3) 0x00020B = ciwLines (c := cfg3) 0x00FA0B ∧
    (Inputs.ofCiw (c := cfg3) 0x00020B).rst = (Inputs.ofCiw (c := cfg3) 0x00FA0B).rst ∧
    correctEvent heldCorrect 0x00FA0B = false ∧ (Inputs.ofCiw (c := cfg3) 0x00FA8B).rst = true := by decide

/-- Off a boundary, on a boundary, and without a tick event. -/
theorem witness_TickCounts :
    ¬atBoundary (regs3 true false 9 1) ∧ atBoundary (regs3 true false 9 2) ∧ cfg3.legal = true ∧
    notReset (c := cfg3) 0x000021 ∧ tickEvent (regs3 true false 9 1) 0x000021 = true ∧
    tickEvent (regs3 true false 9 2) 0x000021 = true ∧ notReset (c := cfg3) 0x000001 ∧
    tickEvent (regs3 true false 9 1) 0x000001 = false := by decide

/-- A boundary with each of the four flag pairs. -/
theorem witness_BoundaryEvaluation :
    atBoundary (regs3 true false 9 2) ∧ (regs3 true false 9 2).flags = ⟨true, false⟩ ∧
    atBoundary (regs3 false true 9 2) ∧ (regs3 false true 9 2).flags = ⟨false, true⟩ ∧
    atBoundary (regs3 true true 9 2) ∧ (regs3 true true 9 2).flags.correct = (regs3 true true 9 2).flags.wrong ∧
    atBoundary (regs3 false false 9 2) ∧
    (regs3 false false 9 2).flags.correct = (regs3 false false 9 2).flags.wrong := by decide

theorem witness_ReportTriplePerCycle :
    cfg3.legal = true ∧ notReset (c := cfg3) 0x000031 ∧ tickEvent (regs3 true false 42 2) 0x000031 = true ∧
    atBoundary (regs3 true false 42 2) ∧ (regs3 true false 42 2).flags = ⟨true, false⟩ ∧
    tickEvent (regs3 false true 42 2) 0x000031 = true ∧ atBoundary (regs3 false true 42 2) ∧
    (regs3 false true 42 2).flags = ⟨false, true⟩ ∧
    ¬(notReset (c := cfg3) 0x000031 ∧ tickEvent (regs3 true true 42 2) 0x000031 = true ∧
      atBoundary (regs3 true true 42 2) ∧
      (regs3 true true 42 2).flags.correct ≠ (regs3 true true 42 2).flags.wrong) := by decide

theorem witness_OnlyTickUsesTickCount :
    Instr.evWrong ≠ .evTick ∧ Instr.evWrong ≠ .reset ∧ cfg3.legal = true ∧ notReset (c := cfg3) 0x000015 ∧
    tickEvent (regs3 true false 42 2) 0x000015 = false := by decide

/-- A run of two ticks from the last count before the boundary: for TickCountIsEventsModuloPeriod,
AtMostOneReportPerPeriod and EveryRiseAcknowledgedOnce. -/
theorem witness_runs :
    cfg3.legal = true ∧ (regs3 true false 42 2).tickBelowPeriod ∧
    (∀ w ∈ ([0x000029, 0x000001, 0x000021] : List (Ciw cfg3)), notReset w) ∧
    rises (regs3 true false 42 2).samples.tick
      (([0x000029, 0x000001, 0x000021] : List (Ciw cfg3)).map fun w => (ciwLines w).tick) = 2 ∧
    2 ≤ cfg3.pReport := by
  refine ⟨?_, ?_, ?_, ?_, ?_⟩ <;> first | exact notReset_of_all (by decide) | decide

/-- P_REPORT = 1: one correct event and then one tick report at once. -/
theorem witness_ReportsOnlyOnBoundaryTicks :
    ({ cfg3 with pReport := 1 } : Config).legal = true ∧
    (∀ w ∈ ([0x000209, 0x000021] : List (Ciw { cfg3 with pReport := 1 })), notReset w) ∧
    ((Regs.reset { cfg3 with pReport := 1 }).nextByR79 (Inputs.ofCiw 0x000209)
      |>.nextByR79 (Inputs.ofCiw 0x000021)).report.valid = true := by
  refine ⟨?_, ?_, ?_⟩ <;> first | exact notReset_of_all (by decide) | decide

/-- Program 1's shape from a count of 1: a correct event, an idle cycle, a tick, an idle cycle, the boundary tick. -/
theorem witness_LastEventIsReportedAtTheBoundary :
    cfg3.legal = true ∧
    (∀ u ∈ ((0x00FA09 : Ciw cfg3) :: ([0x000001, 0x000021, 0x000001] ++ [0x000021])), notReset u) ∧
    (correctEvent (regs3 false true 9 1) 0x00FA09 = true ∨ wrongEvent (regs3 false true 9 1) 0x00FA09 = true) ∧
    rises (ciwLines (c := cfg3) 0x00FA09).correct
      ((([0x000001, 0x000021, 0x000001] ++ [0x000021]) : List (Ciw cfg3)).map fun u => (ciwLines u).correct) = 0 ∧
    rises (ciwLines (c := cfg3) 0x00FA09).wrong
      ((([0x000001, 0x000021, 0x000001] ++ [0x000021]) : List (Ciw cfg3)).map fun u => (ciwLines u).wrong) = 0 ∧
    (regs3 false true 9 1).tickCnt.toNat + rises (regs3 false true 9 1).samples.tick
      (((0x00FA09 : Ciw cfg3) :: ([0x000001, 0x000021, 0x000001] ++ [0x000021])).map fun u => (ciwLines u).tick) =
        cfg3.pReport ∧
    (regs3 false true 9 1).tickCnt.toNat + rises (regs3 false true 9 1).samples.tick
      (((0x00FA09 : Ciw cfg3) :: [0x000001, 0x000021, 0x000001]).map fun u => (ciwLines u).tick) + 1 =
        cfg3.pReport := by
  refine ⟨?_, ?_, ?_, ?_, ?_, ?_, ?_⟩ <;> first | exact notReset_of_all (by decide) | decide

/-- The same with a wrong event, the other case of the report. -/
theorem witness_LastEventIsReportedAtTheBoundary_wrong :
    notReset (c := cfg3) 0x000011 ∧ wrongEvent (regs3 true false 9 1) 0x000011 = true ∧
    rises (ciwLines (c := cfg3) 0x000011).wrong
      ((([0x000001, 0x000021, 0x000001] ++ [0x000021]) : List (Ciw cfg3)).map fun u => (ciwLines u).wrong) = 0 := by
  decide

theorem witness_CommutationSequence :
    (1 : HallCode) ≠ 0 ∧ (1 : HallCode) ≠ 7 ∧ (6 : HallCode) ≠ 0 ∧ (6 : HallCode) ≠ 7 ∧
    nextCode (6 : HallCode) = nextCode 6 := by decide

theorem witness_PatternUpdate :
    cfg3.legal = true ∧ notReset (c := cfg3) 0x000007 ∧ (Inputs.ofCiw (c := cfg3) 0x000007).hall = 7 := by decide

theorem witness_PatternPathIsIndependent :
    cfg3.legal = true ∧ notReset (c := cfg3) 0x00FA0B ∧ notReset (c := cfg3) 0x000073 ∧
    (Inputs.ofCiw (c := cfg3) 0x00FA0B).hall = (Inputs.ofCiw (c := cfg3) 0x000073).hall ∧
    ciwLines (c := cfg3) 0x00FA0B = ciwLines (c := cfg3) 0x00FA0E ∧
    (Inputs.ofCiw (c := cfg3) 0x00FA0B).captured = (Inputs.ofCiw (c := cfg3) 0x00FA0E).captured ∧
    (Inputs.ofCiw (c := cfg3) 0x00FA0B).rst = (Inputs.ofCiw (c := cfg3) 0x00FA0E).rst := by decide

/-- WARMUP_PULSES = 2: armed, the last event, an event before the last, and a cycle without one. -/
theorem witness_WarmupCountsAndArms :
    ({ cfg3 with warmupPulses := 2 } : Config).legal = true ∧
    notReset (c := { cfg3 with warmupPulses := 2 }) 0x000040 ∧
    (Regs.reset cfg3).armed = true ∧ (Regs.reset { cfg3 with warmupPulses := 2 }).armed = false ∧
    ((Regs.reset { cfg3 with warmupPulses := 2 }).warmCnt + 1).toNat ≠ 2 ∧
    ((Regs.reset { cfg3 with warmupPulses := 1 }).warmCnt + 1).toNat = 1 ∧
    warmupEvent (Regs.reset { cfg3 with warmupPulses := 2 }) 0x000040 = true ∧
    warmupEvent (Regs.reset { cfg3 with warmupPulses := 2 }) 0x000001 = false := by decide

theorem witness_StartAfterWarmupPulses :
    ({ cfg3 with warmupPulses := 2 } : Config).legal = true ∧
    (∀ w ∈ ([0x000040, 0x000001, 0x000043] : List (Ciw { cfg3 with warmupPulses := 2 })), notReset w) ∧
    rises false (([0x000040, 0x000001, 0x000043] : List (Ciw { cfg3 with warmupPulses := 2 })).map
      fun w => (ciwLines w).warmup) = 2 := by
  refine ⟨?_, ?_, ?_⟩ <;> first | exact notReset_of_all (by decide) | decide

/-- A reachable state that is not the reset state. -/
theorem witness_InvariantKeptByEveryStep : (at' cfg3 (regs3 true false 250000 2) 0x000021).Inv := by decide

theorem witness_InvariantAtReset : ({ cfg3 with warmupPulses := 2 } : Config).legal = true := by decide

end Sys2Proof.Tests
end

/-! Proofs about the scope of the model (00_scope.md): which configurations step, and that every cycle ends. -/

namespace Sys2Proof.Machine

/-- R13: the legality check says that every parameter is in its range of R7 to R12. -/
theorem legal_iff_ranges (c : Config) :
    c.legal = true ↔
      1 ≤ c.pReport ∧ c.pReport ≤ 2 ^ c.tickW - 1 ∧ c.nsPerTick ≤ 2 ^ c.ivW - 1 ∧
      1 ≤ c.capW ∧ c.capW ≤ 32 ∧ 1 ≤ c.ivW ∧ c.ivW ≤ 64 ∧
      1 ≤ c.tickW ∧ c.tickW ≤ 32 ∧ c.warmupPulses ≤ 65535 := by
  simp only [Config.legal, Bool.and_eq_true, decide_eq_true_eq, and_assoc, Nat.reducePow, Nat.reduceSub]

theorem step_of_legal {s : State} (h : s.cfg.legal = true) : step s = clockEdge s := if_pos h

theorem step_of_not_legal {s : State} (h : ¬s.cfg.legal = true) : step s = .refused .illegalConfig := if_neg h

/-- A cycle, like each of its operations, answers a next state and touches the registers and the wires alone. -/
theorem runCycle_next {c : Config} (inp : Inputs c) (s : State) :
    ∃ (r : Regs s.cfg) (x : Wires), runCycle inp s = .next ⟨s.cfg, r, s.pending, s.freeCount, x⟩ := by
  unfold runCycle
  split
  case isTrue => exact runOps_next _ s
  case isFalse =>
    obtain ⟨r, x, hedge⟩ := exec_next (.edgeSample inp.lines) s.openCycle
    rw [hedge, andThen_next]
    exact runOps_next _ ⟨s.cfg, r, s.pending, s.freeCount, x⟩

/-- A clock edge always answers a next state: the environment has driven one word, and the wires are idle. -/
theorem clockEdge_next (s : State) :
    ∃ r : Regs s.afterFetch.cfg,
      clockEdge s = .next ⟨s.afterFetch.cfg, r, s.afterFetch.pending, s.afterFetch.freeCount, Wires.idle⟩ := by
  obtain ⟨r, x, hcycle⟩ := runCycle_next (Inputs.ofCiw s.fetchWord) s.afterFetch
  exact ⟨r, by rw [clockEdge, hcycle, andThen_next]; rfl⟩

/-- Settles O12: the ranges are the legality check that `step` makes, and a clock edge always answers a next state. -/
theorem illegalConfigurationRefused : Obligations.IllegalConfigurationRefused := by
  unfold Obligations.IllegalConfigurationRefused
  simp only [← legal_iff_ranges]
  refine ⟨fun _ illegal => step_of_not_legal illegal, fun s legal => ?_, rfl, rfl⟩
  obtain ⟨r, hedge⟩ := clockEdge_next s
  exact ⟨_, (step_of_legal legal).trans hedge⟩

end Sys2Proof.Machine

/-! Proofs about the encoding of a cycle (30_encoding.md): the word of its inputs (R72), the operations its selector
word selects (R78), and the cycle as the simultaneous step function of R79. -/

namespace Sys2Proof

/-! ### The Cycle Input Word -/

/-- R72: `captured_ticks` stands above the eight control bits. -/
theorem Inputs.toCiw_toNat {c : Config} (inp : Inputs c) :
    inp.toCiw.toNat = inp.controlByte.toNat + 256 * inp.captured.toNat := by
  have append : inp.toCiw.toNat = inp.captured.toNat <<< 8 ||| inp.controlByte.toNat := BitVec.toNat_append ..
  have low : inp.controlByte.toNat < 2 ^ 8 := inp.controlByte.isLt
  rw [append, ← Nat.shiftLeft_add_eq_or_of_lt low, Nat.shiftLeft_eq]
  omega

/-- Settles O2: the word is the control byte and, from bit 8 up, `captured_ticks`. -/
theorem cycleInputWordLayout : Obligations.CycleInputWordLayout := by
  unfold Obligations.CycleInputWordLayout
  exact ⟨rfl, fun c inp => by rw [inp.toCiw_toNat, inp.controlByte_toNat]⟩

/-! ### The operations of a cycle without reset -/

/-- An operation that a cycle has only under a condition, such as the event it answers. -/
def opIf (b : Bool) (i : Instr) : List Instr := if b then [i] else []

/-- The selected rows, one after another. -/
theorem selectedOps_cons (s : Selector) (row : OpRow) (rows : List OpRow) :
    ((row :: rows).filter (·.selected s)).map (·.op) =
      opIf (row.selected s) row.op ++ (rows.filter (·.selected s)).map (·.op) := by
  rw [List.filter_cons, opIf]
  cases row.selected s <;> rfl

/-- R78: in a cycle without reset each event row answers the bit of its event alone, and IDLE that
there is none. -/
theorem selected_of_edges : ∀ e : EdgeVector,
    let s := selectorWord false e
    (s &&& 0x10 == 0x10) = false ∧ (s &&& 0x10 == 0x00) = true ∧ (s &&& 0x14 == 0x04) = e.getLsbD 2 ∧
    (s &&& 0x11 == 0x01) = e.getLsbD 0 ∧ (s &&& 0x12 == 0x02) = e.getLsbD 1 ∧
    (s &&& 0x18 == 0x08) = e.getLsbD 3 ∧
    (s &&& 0x1F == 0x00) = (e == 0) := by
  decide

/-- The operations that answer the edge vector `e`, in the order of R79; IDLE where there is no event (R128). -/
def eventOps {c : Config} (e : EdgeVector) (inp : Inputs c) : List Instr :=
  opIf (e.getLsbD 2) .evTick ++ (opIf (e.getLsbD 0) (.evCorrect inp.captured.toNat) ++
    (opIf (e.getLsbD 1) .evWrong ++ (opIf (e.getLsbD 3) .evWarmup ++ opIf (e == 0) .idle)))

/-- R78, R79: the operations that the selector word of a cycle without reset selects, in their order. -/
theorem decode_of_edges {c : Config} (e : EdgeVector) (inp : Inputs c) :
    decode (selectorWord false e) inp =
      .edgeSample inp.lines :: (eventOps e inp ++ [.romRead (subst inp.hall), .patUpdate inp.hall]) := by
  obtain ⟨reset, always, tick, correct, wrong, warmup, idle⟩ := selected_of_edges e
  simp only [decode, opRows, selectedOps_cons]
  simp only [OpRow.selected, reset, always, tick, correct, wrong, warmup, idle, eventOps, List.append_assoc]
  rfl

end Sys2Proof

namespace Sys2Proof.Machine

theorem filter_opIf (p : Instr → Bool) (b : Bool) (i : Instr) : (opIf b i).filter p = opIf (b && p i) i := by
  cases b
  case false => rfl
  case true => exact List.filter_cons

/-- R79, R50: once E is known, the cycle issues the operations of its events and PAT_UPDATE. -/
theorem issued_of_edges {c : Config} (e : EdgeVector) (inp : Inputs c) :
    (decode (selectorWord false e) inp).filter issuedAfterEdges = eventOps e inp ++ [.patUpdate inp.hall] := by
  have keep : (eventOps e inp).filter issuedAfterEdges = eventOps e inp := by
    simp only [eventOps, List.filter_append, filter_opIf, issuedAfterEdges, Bool.and_true]
  rw [decode_of_edges, List.filter_cons_of_neg Bool.false_ne_true, List.filter_append, keep]
  rfl

/-! ### The registers after each event of a cycle

Each function below is the register effect of one conditional operation, with the condition moved into the values
written, as R79 writes them: their composition is the step function of R79. -/

namespace Regs

variable {c : Config}

/-- The registers after the tick step of R79, with or without a tick event. -/
def onTick (te : Bool) (r : Regs c) : Regs c :=
  let t := tickStep c te r.flags r.intervalNs r.tickCnt
  ((r.writeFlags t.flags).writeTickCnt t.tickCnt).writeReport t.report

/-- The registers after the correct-event step of R79. -/
def onCorrect (ce : Bool) (k : BitVec c.capW) (r : Regs c) : Regs c :=
  ((r.writeFlags (if ce then flagsOnCorrect else r.flags)).writeInterval
    (if ce then k.setWidth c.ivW * BitVec.ofNat c.ivW c.nsPerTick else r.intervalNs)).writeAckC ce

/-- The registers after the wrong-event step of R79. -/
def onWrong (we : Bool) (r : Regs c) : Regs c :=
  (r.writeFlags (if we then flagsOnWrong else r.flags)).writeAckW we

/-- The registers after the warm-up step of R79. -/
def onWarmup (pe : Bool) (r : Regs c) : Regs c :=
  let w := warmStep c pe r.armed r.warmCnt
  r.writeWarmup w.1 w.2

/-- The registers after the four event steps, in the order of R79. -/
def onEvents (te ce we pe : Bool) (k : BitVec c.capW) (r : Regs c) : Regs c :=
  (((r.onTick te).onCorrect ce k).onWrong we).onWarmup pe

theorem onTick_false {r : Regs c} (h : r.report = ⟨false, 0, 0⟩) : r.onTick false = r := by
  cases r; cases h; rfl

theorem onCorrect_false {r : Regs c} (k : BitVec c.capW) (h : r.ackC = false) : r.onCorrect false k = r := by
  cases r; cases h; rfl

theorem onWrong_false {r : Regs c} (h : r.ackW = false) : r.onWrong false = r := by
  cases r; cases h; rfl

theorem onWarmup_false (r : Regs c) : r.onWarmup false = r := rfl

theorem clearPulses_of_low {r : Regs c} (hrep : r.report = ⟨false, 0, 0⟩) (hackC : r.ackC = false)
    (hackW : r.ackW = false) : r.clearPulses = r := by
  cases r; cases hrep; cases hackC; cases hackW; rfl

/-- R79: without reset, the step function is the composition of the event steps, between the edge samples and the
pattern. -/
theorem nextByR79_of_not_reset (r : Regs c) {inp : Inputs c} (h : inp.rst = false) :
    r.nextByR79 inp =
      ((r.clearPulses.writeSamples inp.lines).onEvents (inp.lines.tick && !r.samples.tick)
        (inp.lines.correct && !r.samples.correct) (inp.lines.wrong && !r.samples.wrong)
        (inp.lines.warmup && !r.samples.warmup) inp.captured).writePattern (rom (subst inp.hall)) := by
  rw [nextByR79, if_neg (Bool.eq_false_iff.mp h)]
  rfl

theorem nextByR79_of_reset (r : Regs c) {inp : Inputs c} (h : inp.rst = true) : r.nextByR79 inp = reset c :=
  if_pos h

end Regs

/-! ### Running the operations of a cycle -/

/-- A conditional operation, given what it answers when it runs and that its answer is no change when it does not. -/
theorem runOps_opIf {b : Bool} {i : Instr} {s t : State} (run : b = true → exec i s = .next t)
    (skip : b = false → t = s) : runOps (opIf b i) s = .next t := by
  cases b
  case false => rw [skip rfl]; rfl
  case true => rw [opIf, if_pos rfl, runOps_cons, run rfl, andThen_next, runOps_nil]

section
variable {c : Config} {r : Regs c} {ws : List (Ciw c)} {n : Nat} {x : Wires}

theorem runOps_opIf_evTick (te : Bool) (h : r.report = ⟨false, 0, 0⟩) :
    runOps (opIf te .evTick) ⟨c, r, ws, n, x⟩ = .next ⟨c, r.onTick te, ws, n, x⟩ :=
  runOps_opIf (fun run => by rw [run]; rfl) (fun skip => by rw [skip, Regs.onTick_false h])

theorem runOps_opIf_evCorrect (ce : Bool) (k : BitVec c.capW) (h : r.ackC = false) :
    runOps (opIf ce (.evCorrect k.toNat)) ⟨c, r, ws, n, x⟩ = .next ⟨c, r.onCorrect ce k, ws, n, x⟩ :=
  runOps_opIf (fun run => by rw [run, Regs.onCorrect, if_pos rfl, if_pos rfl, ← intervalProduct_of_port]; rfl)
    (fun skip => by rw [skip, Regs.onCorrect_false k h])

theorem runOps_opIf_evWrong (we : Bool) (h : r.ackW = false) :
    runOps (opIf we .evWrong) ⟨c, r, ws, n, x⟩ = .next ⟨c, r.onWrong we, ws, n, x⟩ :=
  runOps_opIf (fun run => by rw [run]; rfl) (fun skip => by rw [skip, Regs.onWrong_false h])

theorem runOps_opIf_evWarmup (pe : Bool) :
    runOps (opIf pe .evWarmup) ⟨c, r, ws, n, x⟩ = .next ⟨c, r.onWarmup pe, ws, n, x⟩ :=
  runOps_opIf (fun run => by rw [run]; rfl) (fun skip => by rw [skip, Regs.onWarmup_false])

theorem exec_idle : exec .idle ⟨c, r, ws, n, x⟩ = .next ⟨c, r.clearPulses, ws, n, x⟩ := rfl

/-- IDLE changes nothing when no pulse is up (R128). -/
theorem runOps_opIf_idle (quiet : Bool) (h : quiet = true → r.clearPulses = r) :
    runOps (opIf quiet .idle) ⟨c, r, ws, n, x⟩ = .next ⟨c, r, ws, n, x⟩ :=
  runOps_opIf (fun run => by rw [exec_idle, h run]) (fun _ => rfl)

/-- PAT_UPDATE loads the entry it has read at the fallback of the Hall code (R181, R182). -/
theorem exec_patUpdate (hall : HallCode) :
    exec (.patUpdate hall) ⟨c, r, ws, n, x⟩ =
      .next ⟨c, r.writePattern (rom (subst hall)), ws, n, { x with romData := rom (subst hall) }⟩ := rfl

/-- Step 1 of R79: the pulses fall, the samples record the lines, and E is on its wires. -/
theorem exec_edgeSample_openCycle (lines : Lines) :
    exec (.edgeSample lines) (State.openCycle ⟨c, r, ws, n, x⟩) =
      .next ⟨c, r.clearPulses.writeSamples lines, ws, n, { x with edge := edges r.samples lines }⟩ := rfl

/-- The operations of the events of `e` have the effect of the event steps, from registers whose pulses are down. -/
theorem runOps_eventOps (e : EdgeVector) (inp : Inputs c) (hrep : r.report = ⟨false, 0, 0⟩) (hackC : r.ackC = false)
    (hackW : r.ackW = false) :
    runOps (eventOps e inp) ⟨c, r, ws, n, x⟩ =
      .next ⟨c, r.onEvents (e.getLsbD 2) (e.getLsbD 0) (e.getLsbD 1) (e.getLsbD 3) inp.captured, ws, n, x⟩ := by
  have idle (none : (e == 0) = true) :
      (r.onEvents (e.getLsbD 2) (e.getLsbD 0) (e.getLsbD 1) (e.getLsbD 3) inp.captured).clearPulses =
        r.onEvents (e.getLsbD 2) (e.getLsbD 0) (e.getLsbD 1) (e.getLsbD 3) inp.captured := by
    obtain rfl := eq_of_beq none
    exact Regs.clearPulses_of_low rfl rfl rfl
  rw [eventOps, runOps_append, runOps_opIf_evTick _ hrep, andThen_next,
    runOps_append, runOps_opIf_evCorrect (r := r.onTick _) _ inp.captured hackC, andThen_next,
    runOps_append, runOps_opIf_evWrong (r := (r.onTick _).onCorrect _ _) _ hackW, andThen_next,
    runOps_append, runOps_opIf_evWarmup, andThen_next, ← Regs.onEvents, runOps_opIf_idle _ idle]

/-- R79: a cycle leaves the registers as the simultaneous step function gives them. -/
theorem runCycle_eq_nextByR79 (inp : Inputs c) :
    ∃ y : Wires, runCycle inp ⟨c, r, ws, n, x⟩ = .next ⟨c, r.nextByR79 inp, ws, n, y⟩ := by
  unfold runCycle
  cases hrst : inp.rst
  case true =>
    rw [if_pos rfl, decode_reset, r.nextByR79_of_reset hrst]
    exact ⟨x, rfl⟩
  case false =>
    obtain ⟨bit0, bit1, bit2, bit3⟩ := edges_bits r.samples inp.lines
    rw [if_neg Bool.false_ne_true, exec_edgeSample_openCycle, andThen_next, issued_of_edges, runOps_append,
      runOps_eventOps _ inp rfl rfl rfl, andThen_next, runOps_cons, exec_patUpdate, andThen_next, runOps_nil,
      bit0, bit1, bit2, bit3, r.nextByR79_of_not_reset hrst]
    exact ⟨_, rfl⟩

end

/-- Settles O9: the cycle's operations, one after another, give the registers of R79, and the wires fall idle. -/
theorem stepIsTheFunctionOfR79 : Obligations.StepIsTheFunctionOfR79 := by
  unfold Obligations.StepIsTheFunctionOfR79
  intro c r w ws n x legal
  obtain ⟨y, hcycle⟩ := runCycle_eq_nextByR79 (r := r) (ws := ws) (n := n) (x := x) (Inputs.ofCiw w)
  rw [step_of_legal (s := ⟨c, r, w :: ws, n, x⟩) legal, clockEdge, fetchWord_queued, afterFetch_queued, hcycle,
    andThen_next]
  rfl

/-- Settles O13: a clock edge always answers a next state, and takes the one word it reads off the queue. -/
theorem everyInputHasANextState : Obligations.EveryInputHasANextState := by
  unfold Obligations.EveryInputHasANextState
  intro c r w ws n x legal
  obtain ⟨t, hedge⟩ := clockEdge_next ⟨c, r, w :: ws, n, x⟩
  exact ⟨t, (step_of_legal (s := ⟨c, r, w :: ws, n, x⟩) legal).trans hedge⟩

end Sys2Proof.Machine

/-! Proofs about the event classifier (42_event_classifier.md): what EDGE_SAMPLE, EV_CORRECT and EV_WRONG write, and
what a cycle with or without their events leaves in the flags, the interval and the acknowledges. -/

namespace Sys2Proof.Machine

/-! ### The interval product (R129) -/

/-- R129: the product of an operand the port holds, as a number. -/
theorem intervalProduct_toNat {c : Config} {k : Nat} (h : k < 2 ^ c.capW) :
    (intervalProduct c k).toNat = k * c.nsPerTick % 2 ^ c.ivW := by
  rw [intervalProduct, capturedOperand, nsPerTickOperand, BitVec.toNat_mul, BitVec.toNat_setWidth, BitVec.toNat_ofNat,
    BitVec.toNat_ofNat, Nat.mod_eq_of_lt h, ← Nat.mul_mod]

/-- R129: the largest product of a 16-bit operand and a factor up to 65537 fits in 32 bits. -/
theorem product_lt_of_le_65537 {k f : Nat} (hk : k < 2 ^ 16) (hf : f ≤ 65537) : k * f < 2 ^ 32 := by
  calc k * f ≤ 65535 * 65537 := Nat.mul_le_mul (by omega) hf
    _ < 2 ^ 32 := by decide

/-! ### The flags after the tick step (R151 to R154) -/

/-- One flag alone is cleared by the boundary evaluation; both or none are kept. -/
theorem evaluate_flags {c : Config} (f : FlagPair) (iv : BitVec c.ivW) :
    (evaluate f iv).1 = ⟨f.correct && f.wrong, f.correct && f.wrong⟩ := by
  obtain ⟨correct, wrong⟩ := f
  cases correct <;> cases wrong <;> rfl

/-- R125: the tick step changes the flags on a boundary tick alone. -/
theorem tickStep_flags_off_boundary {c : Config} {te : Bool} (f : FlagPair) (iv : BitVec c.ivW) {t : BitVec c.tickW}
    (h : ¬(te = true ∧ (t + 1).toNat = c.pReport)) : (tickStep c te f iv t).flags = f := by
  cases te
  case false => rw [tickStep_idle]
  case true => rw [tickStep_below f iv fun boundary => h ⟨rfl, boundary⟩]

/-! ### The registers of the classifier after a cycle -/

namespace Regs

section
variable {c : Config} {r : Regs c} {w : Ciw c}

/-- R124, R125: in the flags the wrong event comes last, after the correct event, and that after the tick step. -/
theorem nextByR79_flags (h : notReset w) :
    (r.nextByR79 (Inputs.ofCiw w)).flags =
      if wrongEvent r w then ⟨false, true⟩
      else if correctEvent r w then ⟨true, false⟩
      else (tickStep c (tickEvent r w) r.flags r.intervalNs r.tickCnt).flags := by
  rw [nextByR79_of_not_reset r h]; rfl

/-- R122, R123: a correct event alone writes the interval. -/
theorem nextByR79_intervalNs (h : notReset w) :
    (r.nextByR79 (Inputs.ofCiw w)).intervalNs = if correctEvent r w then intervalOf w else r.intervalNs := by
  rw [nextByR79_of_not_reset r h]; rfl

theorem nextByR79_ackC (h : notReset w) : (r.nextByR79 (Inputs.ofCiw w)).ackC = correctEvent r w := by
  rw [nextByR79_of_not_reset r h]; rfl

theorem nextByR79_ackW (h : notReset w) : (r.nextByR79 (Inputs.ofCiw w)).ackW = wrongEvent r w := by
  rw [nextByR79_of_not_reset r h]; rfl

theorem nextByR79_samples (h : notReset w) : (r.nextByR79 (Inputs.ofCiw w)).samples = ciwLines w := by
  rw [nextByR79_of_not_reset r h]; rfl

theorem nextByR79_flags_of_wrong (h : notReset w) (wrong : wrongEvent r w = true) :
    (r.nextByR79 (Inputs.ofCiw w)).flags = ⟨false, true⟩ := by
  rw [nextByR79_flags h, if_pos wrong]

theorem nextByR79_flags_of_correct (h : notReset w) (wrong : wrongEvent r w = false)
    (correct : correctEvent r w = true) : (r.nextByR79 (Inputs.ofCiw w)).flags = ⟨true, false⟩ := by
  rw [nextByR79_flags h, if_neg (Bool.eq_false_iff.mp wrong), if_pos correct]

/-- R125: with no classifier event the tick step alone decides the flags. -/
theorem nextByR79_flags_of_no_event (h : notReset w) (wrong : wrongEvent r w = false)
    (correct : correctEvent r w = false) :
    (r.nextByR79 (Inputs.ofCiw w)).flags = (tickStep c (tickEvent r w) r.flags r.intervalNs r.tickCnt).flags := by
  rw [nextByR79_flags h, if_neg (Bool.eq_false_iff.mp wrong), if_neg (Bool.eq_false_iff.mp correct)]

theorem nextByR79_intervalNs_of_correct (h : notReset w) (correct : correctEvent r w = true) :
    (r.nextByR79 (Inputs.ofCiw w)).intervalNs = intervalOf w := by
  rw [nextByR79_intervalNs h, if_pos correct]

theorem nextByR79_intervalNs_of_no_correct (h : notReset w) (correct : correctEvent r w = false) :
    (r.nextByR79 (Inputs.ofCiw w)).intervalNs = r.intervalNs := by
  rw [nextByR79_intervalNs h, if_neg (Bool.eq_false_iff.mp correct)]

end

/-- R130: without a correct event, as in a reset cycle, the next registers do not depend on `captured_ticks`. -/
theorem nextByR79_captured_irrelevant {c : Config} (r : Regs c) {i j : Inputs c} (hall : i.hall = j.hall)
    (lines : i.lines = j.lines) (rst : i.rst = j.rst)
    (unused : j.rst = true ∨ (j.lines.correct && !r.samples.correct) = false) : r.nextByR79 i = r.nextByR79 j := by
  cases hrst : j.rst
  case true => rw [nextByR79_of_reset r (rst.trans hrst), nextByR79_of_reset r hrst]
  case false =>
    have none := unused.resolve_left (Bool.eq_false_iff.mp hrst)
    rw [nextByR79_of_not_reset r (rst.trans hrst), nextByR79_of_not_reset r hrst, hall, lines, none]
    rfl

end Regs

/-- R126: once the samples record the level of an event, that line has no event, whatever its next level. -/
theorem no_event_after_event {level sample recorded next : Bool} (event : (level && !sample) = true)
    (record : recorded = level) : (next && !recorded) = false := by
  obtain ⟨high, -⟩ := Bool.and_eq_true_iff.mp event
  rw [record, high, Bool.not_true, Bool.and_false]

/-! ### The operations of the two events -/

section
variable {c : Config} {r : Regs c} {ws : List (Ciw c)} {n : Nat} {x : Wires}

theorem exec_evCorrect (k : Nat) :
    exec (.evCorrect k) ⟨c, r, ws, n, x⟩ =
      .next ⟨c, ((r.writeFlags flagsOnCorrect).writeInterval (intervalProduct c k)).writeAckC true, ws, n, x⟩ := rfl

theorem exec_evWrong :
    exec .evWrong ⟨c, r, ws, n, x⟩ = .next ⟨c, (r.writeFlags flagsOnWrong).writeAckW true, ws, n, x⟩ := rfl

end

/-! ### The statements -/

/-- Settles O16: the edge vector has the bits of `edges`, and the step of R79 records the levels. -/
theorem edgeSampleComputesAndRecords : Obligations.EdgeSampleComputesAndRecords := by
  unfold Obligations.EdgeSampleComputesAndRecords
  refine ⟨fun c r l ws n x => ⟨edges r.samples l, rfl, edges_bits r.samples l⟩, fun c r w ws n x legal => ?_⟩
  refine ⟨_, stepIsTheFunctionOfR79 c r w ws n x legal, ?_⟩
  cases hrst : (Inputs.ofCiw w).rst
  case true => rw [Regs.nextByR79_of_reset r hrst]; rfl
  case false => exact Regs.nextByR79_samples hrst

/-- Settles O17: from what EV_CORRECT writes, and the flags, interval and acknowledge of R79. -/
theorem correctEventSetsFlagAndInterval : Obligations.CorrectEventSetsFlagAndInterval := by
  unfold Obligations.CorrectEventSetsFlagAndInterval
  refine ⟨fun c r k ws n x _ => exec_evCorrect k, fun c r w ws n x legal running correct => ?_⟩
  exact ⟨_, stepIsTheFunctionOfR79 c r w ws n x legal, Regs.nextByR79_intervalNs_of_correct running correct,
    (Regs.nextByR79_ackC running).trans correct,
    fun wrong => Regs.nextByR79_flags_of_correct running wrong correct⟩

/-- Settles O18: EV_WRONG does not name the interval, and in the step of R79 it writes the flags last. -/
theorem wrongEventSetsFlag : Obligations.WrongEventSetsFlag := by
  unfold Obligations.WrongEventSetsFlag
  refine ⟨fun c r ws n x => exec_evWrong, fun c r w ws n x legal running wrong => ?_⟩
  exact ⟨_, stepIsTheFunctionOfR79 c r w ws n x legal, Regs.nextByR79_flags_of_wrong running wrong,
    (Regs.nextByR79_ackW running).trans wrong,
    fun correct => Regs.nextByR79_intervalNs_of_no_correct running correct⟩

/-- Settles O19: the wrong event has the flags, the correct event the interval, and each its acknowledge. -/
theorem wrongAfterCorrectInOneCycle : Obligations.WrongAfterCorrectInOneCycle := by
  unfold Obligations.WrongAfterCorrectInOneCycle
  intro c r w ws n x legal running correct wrong
  exact ⟨_, stepIsTheFunctionOfR79 c r w ws n x legal, Regs.nextByR79_flags_of_wrong running wrong,
    Regs.nextByR79_intervalNs_of_correct running correct, (Regs.nextByR79_ackC running).trans correct,
    (Regs.nextByR79_ackW running).trans wrong⟩

/-- Settles O20: the events' flags stand above the tick step's, which clears on a boundary tick alone. -/
theorem eventOverridesReportClear : Obligations.EventOverridesReportClear := by
  unfold Obligations.EventOverridesReportClear
  intro c r w ws n x legal running
  refine ⟨_, stepIsTheFunctionOfR79 c r w ws n x legal, Regs.nextByR79_flags_of_wrong running,
    Regs.nextByR79_flags_of_correct running, fun wrong correct tick boundary => ?_, fun wrong correct off => ?_⟩
  · rw [Regs.nextByR79_flags_of_no_event running wrong correct, tick, tickStep_boundary _ _ boundary, evaluate_flags]
  · rw [Regs.nextByR79_flags_of_no_event running wrong correct, tickStep_flags_off_boundary _ _ off]

/-- Settles O21: the event's line is at 1, so the samples hold it in the next cycle, which has no such event. -/
theorem acknowledgeFollowsEvent : Obligations.AcknowledgeFollowsEvent := by
  unfold Obligations.AcknowledgeFollowsEvent
  intro c r w ws n x legal running
  refine ⟨_, stepIsTheFunctionOfR79 c r w ws n x legal, Regs.nextByR79_ackC running, Regs.nextByR79_ackW running,
    fun v => ⟨fun correct => no_event_after_event correct ?_, fun wrong => no_event_after_event wrong ?_⟩⟩
  · rw [Regs.nextByR79_samples running]
  · rw [Regs.nextByR79_samples running]

/-- Settles O24: EV_CORRECT writes the product of R129, which does not wrap while it is below `2^32`. -/
theorem intervalProductModuloWidth : Obligations.IntervalProductModuloWidth := by
  unfold Obligations.IntervalProductModuloWidth
  refine ⟨fun c r k ws n x hk => ⟨_, exec_evCorrect k, intervalProduct_toNat hk, fun cap iv ns => ?_⟩, rfl⟩
  have fits : k * c.nsPerTick < 2 ^ c.ivW := iv ▸ product_lt_of_le_65537 (cap ▸ hk) ns
  exact (intervalProduct_toNat hk).trans (Nat.mod_eq_of_lt fits)

/-- Settles O25: both words give the registers of R79, which do not depend on the captured ticks. -/
theorem capturedTicksIgnoredWithoutCorrectEvent : Obligations.CapturedTicksIgnoredWithoutCorrectEvent := by
  unfold Obligations.CapturedTicksIgnoredWithoutCorrectEvent
  intro c r v w ws n x legal hall lines rst unused
  refine ⟨_, ?_, stepIsTheFunctionOfR79 c r w ws n x legal⟩
  rw [stepIsTheFunctionOfR79 c r v ws n x legal, Regs.nextByR79_captured_irrelevant r hall lines rst unused]

end Sys2Proof.Machine

/-! Proofs about the periodic reporter (43_periodic_reporter.md): what EV_TICK does on a boundary tick, the report
triple after every cycle, and that nothing but a tick event uses `TICK_CNT`. -/

namespace Sys2Proof.Machine

/-- R154: equal flags are kept and give no report. -/
theorem evaluate_of_equal_flags {c : Config} {f : FlagPair} (iv : BitVec c.ivW) (equal : f.correct = f.wrong) :
    evaluate f iv = (f, ⟨false, 0, 0⟩) := by
  obtain ⟨correct, wrong⟩ := f
  obtain rfl : correct = wrong := equal
  cases correct
  case false => exact evaluate_none iv
  case true => exact evaluate_both iv

/-- R155: there is no report without a tick event, off a boundary, or with equal flags. -/
theorem tickStep_report_of_no_report {c : Config} {te : Bool} {f : FlagPair} (iv : BitVec c.ivW) {t : BitVec c.tickW}
    (h : ¬(te = true ∧ (t + 1).toNat = c.pReport ∧ f.correct ≠ f.wrong)) :
    (tickStep c te f iv t).report = ⟨false, 0, 0⟩ := by
  cases te
  case false => rw [tickStep_idle]
  case true =>
    by_cases boundary : (t + 1).toNat = c.pReport
    · have equal : f.correct = f.wrong := by_contra fun differ => h ⟨rfl, boundary, differ⟩
      rw [tickStep_boundary f iv boundary, evaluate_of_equal_flags iv equal]
    · rw [tickStep_below f iv boundary]

namespace Regs

section
variable {c : Config} {r : Regs c} {w : Ciw c}

/-- R150: a boundary tick restarts the counter and writes the evaluation of the flags. -/
theorem onTick_boundary (boundary : atBoundary r) :
    r.onTick true =
      ((r.writeFlags (evaluate r.flags r.intervalNs).1).writeTickCnt 0).writeReport
        (evaluate r.flags r.intervalNs).2 := by
  rw [onTick, tickStep_boundary _ _ boundary]

/-- R155: the report is the tick step's, from the flags and the interval before the cycle. -/
theorem nextByR79_report (h : notReset w) :
    (r.nextByR79 (Inputs.ofCiw w)).report =
      (tickStep c (tickEvent r w) r.flags r.intervalNs r.tickCnt).report := by
  rw [nextByR79_of_not_reset r h]; rfl

theorem nextByR79_report_of_boundary (h : notReset w) (tick : tickEvent r w = true) (boundary : atBoundary r) :
    (r.nextByR79 (Inputs.ofCiw w)).report = (evaluate r.flags r.intervalNs).2 := by
  rw [nextByR79_report h, tick, tickStep_boundary _ _ boundary]

/-- R155: outside the cycle after a boundary tick that reports, the triple is 0. -/
theorem nextByR79_report_of_no_report
    (h : ¬(notReset w ∧ tickEvent r w = true ∧ atBoundary r ∧ r.flags.correct ≠ r.flags.wrong)) :
    (r.nextByR79 (Inputs.ofCiw w)).report = ⟨false, 0, 0⟩ := by
  cases hrst : (Inputs.ofCiw w).rst
  case true => rw [nextByR79_of_reset r hrst]; rfl
  case false => rw [nextByR79_report hrst, tickStep_report_of_no_report _ fun reports => h ⟨hrst, reports⟩]

/-- R150: the counter is the tick step's. -/
theorem nextByR79_tickCnt (h : notReset w) :
    (r.nextByR79 (Inputs.ofCiw w)).tickCnt =
      (tickStep c (tickEvent r w) r.flags r.intervalNs r.tickCnt).tickCnt := by
  rw [nextByR79_of_not_reset r h]; rfl

theorem nextByR79_tickCnt_of_no_tick (h : notReset w) (quiet : tickEvent r w = false) :
    (r.nextByR79 (Inputs.ofCiw w)).tickCnt = r.tickCnt := by
  rw [nextByR79_tickCnt h, quiet, tickStep_idle]

/-- R161: a cycle without a tick event does not read the counter. -/
theorem nextByR79_writeTickCnt_of_no_tick {inp : Inputs c} (v : BitVec c.tickW) (h : inp.rst = false)
    (quiet : (inp.lines.tick && !r.samples.tick) = false) :
    (r.writeTickCnt v).nextByR79 inp = (r.nextByR79 inp).writeTickCnt v := by
  rw [nextByR79_of_not_reset _ h, nextByR79_of_not_reset r h, writeTickCnt_samples, quiet]; rfl

end

end Regs

section
variable {c : Config} {r : Regs c} {ws : List (Ciw c)} {n : Nat} {x : Wires}

theorem exec_evTick : exec .evTick ⟨c, r, ws, n, x⟩ = .next ⟨c, r.onTick true, ws, n, x⟩ := rfl

theorem exec_reset : exec .reset ⟨c, r, ws, n, x⟩ = .next ⟨c, Regs.reset c, ws, n, x⟩ := rfl

/-- R161: every operation but EV_TICK and RESET keeps `TICK_CNT`, and does the same whatever value it has. -/
theorem exec_writeTickCnt {i : Instr} (v : BitVec c.tickW) (noTick : i ≠ .evTick) (noReset : i ≠ .reset) :
    ∃ (t : Regs c) (y : Wires), exec i ⟨c, r, ws, n, x⟩ = .next ⟨c, t, ws, n, y⟩ ∧ t.tickCnt = r.tickCnt ∧
      exec i ⟨c, r.writeTickCnt v, ws, n, x⟩ = .next ⟨c, t.writeTickCnt v, ws, n, y⟩ := by
  cases i
  case evTick => exact absurd rfl noTick
  case reset => exact absurd rfl noReset
  case edgeSample lines => exact ⟨_, _, rfl, rfl, rfl⟩
  case patUpdate hall => exact ⟨_, _, exec_patUpdate hall, rfl, rfl⟩
  case romRead addr => exact ⟨_, _, rfl, rfl, rfl⟩
  case evCorrect k => exact ⟨_, _, exec_evCorrect k, rfl, rfl⟩
  case evWrong => exact ⟨_, _, exec_evWrong, rfl, rfl⟩
  case evWarmup => exact ⟨_, _, rfl, rfl, rfl⟩
  case idle => exact ⟨_, _, exec_idle, rfl, rfl⟩

end

/-! ### The statements -/

/-- Settles O28: a boundary tick reports what `evaluate` gives for the flags before the cycle; no other cycle reports. -/
theorem reportTriplePerCycle : Obligations.ReportTriplePerCycle := by
  unfold Obligations.ReportTriplePerCycle
  intro c r w ws n x legal
  refine ⟨_, stepIsTheFunctionOfR79 c r w ws n x legal, fun running tick boundary flags => ?_,
    fun running tick boundary flags => ?_, Regs.nextByR79_report_of_no_report⟩
  · rw [Regs.nextByR79_report_of_boundary running tick boundary, flags, evaluate_correct]
  · rw [Regs.nextByR79_report_of_boundary running tick boundary, flags, evaluate_wrong]

/-- Settles O29: operation by operation, and for the cycle because the step of R79 uses the counter in its tick step
alone. -/
theorem onlyTickUsesTickCount : Obligations.OnlyTickUsesTickCount := by
  unfold Obligations.OnlyTickUsesTickCount
  refine ⟨fun i c r v ws n x noTick noReset => exec_writeTickCnt v noTick noReset,
    fun c r ws n x => ⟨_, exec_reset, rfl⟩, fun c r v w ws n x legal running quiet => ?_⟩
  refine ⟨_, stepIsTheFunctionOfR79 c r w ws n x legal, Regs.nextByR79_tickCnt_of_no_tick running quiet, ?_⟩
  exact (stepIsTheFunctionOfR79 c (r.writeTickCnt v) w ws n x legal).trans
    (by rw [Regs.nextByR79_writeTickCnt_of_no_tick v running quiet]; rfl)

/-- Settles O27: EV_TICK on a boundary writes the evaluation, whose cases are those of the flags. -/
theorem boundaryEvaluation : Obligations.BoundaryEvaluation := by
  unfold Obligations.BoundaryEvaluation
  intro c r ws n x boundary
  refine ⟨fun flags => ?_, fun flags => ?_, fun equal => ?_⟩
  · rw [exec_evTick, Regs.onTick_boundary boundary, flags, evaluate_correct]; rfl
  · rw [exec_evTick, Regs.onTick_boundary boundary, flags, evaluate_wrong]; rfl
  · rw [exec_evTick, Regs.onTick_boundary boundary, evaluate_of_equal_flags _ equal]; rfl

end Sys2Proof.Machine

/-! Proofs about the pattern driver (44_pattern_driver.md): what PAT_UPDATE and EV_WARMUP write, what a cycle leaves in
the pattern and warm-up registers, and that the warm-up registers reach no other. -/

namespace Sys2Proof.Machine

/-! ### The entry of a Hall code (R100, R181) -/

/-- R181, R182: the entry PAT_UPDATE loads for each Hall code; the sentinel codes 0 and 7 have that of code 1. -/
theorem rom_subst_of_code (h : HallCode) :
    (h = 0 → rom (subst h) = 0x19) ∧ (h = 1 → rom (subst h) = 0x19) ∧ (h = 2 → rom (subst h) = 0x32) ∧
    (h = 3 → rom (subst h) = 0x13) ∧ (h = 4 → rom (subst h) = 0x2C) ∧ (h = 5 → rom (subst h) = 0x0D) ∧
    (h = 6 → rom (subst h) = 0x26) ∧ (h = 7 → rom (subst h) = 0x19) := by
  revert h; decide

/-! ### The registers of the pattern driver after a cycle -/

namespace Regs

section
variable {c : Config} {r : Regs c} {w : Ciw c}

theorem writeWarmup_self : r.writeWarmup r.armed r.warmCnt = r := rfl

/-- R182: the pattern is the entry of the Hall code, whatever the registers are. -/
theorem nextByR79_pattern (h : notReset w) :
    (r.nextByR79 (Inputs.ofCiw w)).pattern = rom (subst (Inputs.ofCiw w).hall) := by
  rw [nextByR79_of_not_reset r h, writePattern_pattern]

theorem nextByR79_latchReq (h : notReset w) : (r.nextByR79 (Inputs.ofCiw w)).latchReq = true := by
  rw [nextByR79_of_not_reset r h, writePattern_latchReq]

/-- R185: the warm-up registers are those of the warm-up step. -/
theorem nextByR79_warmup (h : notReset w) :
    ((r.nextByR79 (Inputs.ofCiw w)).armed, (r.nextByR79 (Inputs.ofCiw w)).warmCnt) =
      warmStep c (warmupEvent r w) r.armed r.warmCnt := by
  rw [nextByR79_of_not_reset r h]; rfl

/-- R187: the step function of R79 uses `ARMED` and `WARM_CNT` for their own next values alone. -/
theorem nextByR79_writeWarmup (a : Bool) (m : BitVec 16) (inp : Inputs c) :
    (r.writeWarmup a m).nextByR79 inp =
      (r.nextByR79 inp).writeWarmup ((r.writeWarmup a m).nextByR79 inp).armed
        ((r.writeWarmup a m).nextByR79 inp).warmCnt := by
  cases hrst : inp.rst
  case true => rw [nextByR79_of_reset _ hrst, nextByR79_of_reset r hrst, writeWarmup_self]
  case false => rw [nextByR79_of_not_reset _ hrst, nextByR79_of_not_reset r hrst]; rfl

end

end Regs

/-! ### The warm-up step (R185) -/

/-- R185: without a warm-up event, or once armed, the warm-up registers are kept. -/
theorem warmStep_of_kept {c : Config} {pe armed : Bool} (n : BitVec 16) (kept : pe = false ∨ armed = true) :
    warmStep c pe armed n = (armed, n) := by
  obtain rfl | rfl := kept
  · exact warmStep_idle c armed n
  · exact warmStep_armed c pe n

/-- R185: a warm-up event before arming is counted, and arms exactly if the count reaches `WARMUP_PULSES`. -/
theorem warmStep_counts (c : Config) (n : BitVec 16) :
    warmStep c true false n = (decide ((n + 1).toNat = c.warmupPulses), n + 1) := by
  by_cases last : (n + 1).toNat = c.warmupPulses
  · rw [warmStep_last last, decide_eq_true last]
  · rw [warmStep_below last, decide_eq_false last]

section
variable {c : Config} {r : Regs c} {ws : List (Ciw c)} {n : Nat} {x : Wires}

theorem exec_evWarmup :
    exec .evWarmup ⟨c, r, ws, n, x⟩ =
      .next ⟨c, r.writeWarmup (warmStep c true r.armed r.warmCnt).1 (warmStep c true r.armed r.warmCnt).2,
        ws, n, x⟩ := rfl

theorem exec_evWarmup_of_armed (armed : r.armed = true) :
    exec .evWarmup ⟨c, r, ws, n, x⟩ = .next ⟨c, r, ws, n, x⟩ := by
  rw [exec_evWarmup, warmStep_of_kept _ (.inr armed), Regs.writeWarmup_self]

theorem exec_evWarmup_of_not_armed (unarmed : r.armed = false) :
    exec .evWarmup ⟨c, r, ws, n, x⟩ =
      .next ⟨c, r.writeWarmup (decide ((r.warmCnt + 1).toNat = c.warmupPulses)) (r.warmCnt + 1), ws, n, x⟩ := by
  rw [exec_evWarmup, unarmed, warmStep_counts]

end

/-! ### The statements -/

/-- Settles O37: the byte is the ROM's entry at the fallback of the code, which R79 loads whatever the registers are. -/
theorem patternUpdate : Obligations.PatternUpdate := by
  unfold Obligations.PatternUpdate
  intro c r ws n x h
  obtain ⟨code0, code1, code2, code3, code4, code5, code6, code7⟩ := rom_subst_of_code h
  refine ⟨rom (subst h), exec_patUpdate h, code0, code1, code2, code3, code4, code5, code6, code7,
    fun w legal running hall => ?_⟩
  obtain rfl := hall
  exact ⟨_, stepIsTheFunctionOfR79 c r w ws n x legal, Regs.nextByR79_pattern running,
    Regs.nextByR79_latchReq running⟩

/-- Settles O39: the two cases of the warm-up step, for EV_WARMUP and for the warm-up registers of R79. -/
theorem warmupCountsAndArms : Obligations.WarmupCountsAndArms := by
  unfold Obligations.WarmupCountsAndArms
  refine ⟨fun c r ws n x => ⟨exec_evWarmup_of_armed, fun unarmed last => ?_, fun unarmed below => ?_⟩,
    fun c r w ws n x legal running => ?_⟩
  · rw [exec_evWarmup_of_not_armed unarmed, decide_eq_true last]; rfl
  · rw [exec_evWarmup_of_not_armed unarmed, decide_eq_false below, ← unarmed]; rfl
  · have warmup := Regs.nextByR79_warmup (r := r) running
    refine ⟨_, stepIsTheFunctionOfR79 c r w ws n x legal, fun kept => ?_, fun event unarmed => ?_⟩
    · rw [warmStep_of_kept _ kept] at warmup
      exact Prod.mk.inj warmup
    · rw [event, unarmed, warmStep_counts] at warmup
      exact (Prod.mk.inj warmup).symm

/-- Settles O41: from both states the step gives the registers of R79, which differ in the warm-up registers alone. -/
theorem armedGatesNothing : Obligations.ArmedGatesNothing := by
  unfold Obligations.ArmedGatesNothing
  intro c r a m w ws n x legal
  exact ⟨_, _, stepIsTheFunctionOfR79 c r w ws n x legal,
    stepIsTheFunctionOfR79 c (r.writeWarmup a m) w ws n x legal, Regs.nextByR79_writeWarmup a m _⟩

end Sys2Proof.Machine

/-! Proofs about reset (70_reset_and_hazards.md): the values that a reset cycle gives the registers (R240), and that no
other cycle clears `ARMED` or restarts the reporting period without a boundary tick. -/

namespace Sys2Proof.Machine

namespace Regs

section
variable {c : Config} {r : Regs c} {w : Ciw c}

/-- R150: a tick event off the boundary is counted. -/
theorem nextByR79_tickCnt_of_tick_below (h : notReset w) (tick : tickEvent r w = true) (below : ¬atBoundary r) :
    (r.nextByR79 (Inputs.ofCiw w)).tickCnt = r.tickCnt + 1 := by
  rw [nextByR79_tickCnt h, tick, tickStep_below _ _ below]

/-- R185: once armed, a cycle without reset stays armed. -/
theorem nextByR79_armed_of_armed (h : notReset w) (armed : r.armed = true) :
    (r.nextByR79 (Inputs.ofCiw w)).armed = true := by
  have warmup := nextByR79_warmup (r := r) h
  rw [armed, warmStep_armed] at warmup
  exact congrArg Prod.fst warmup

end

end Regs

/-- R240: a reset cycle gives the reset values, whatever the registers and the other inputs were. -/
theorem step_of_reset {c : Config} (r : Regs c) {w : Ciw c} (ws : List (Ciw c)) (n : Nat) (x : Wires)
    (legal : c.legal = true) (rst : (Inputs.ofCiw w).rst = true) :
    step ⟨c, r, w :: ws, n, x⟩ = .next ⟨c, Regs.reset c, ws, n, ⟨0, 0⟩⟩ := by
  rw [stepIsTheFunctionOfR79 c r w ws n x legal, r.nextByR79_of_reset rst]

/-- Settles O14: RESET and a reset cycle give `Regs.reset`, which holds the values of R240's table; any other cycle
gives the registers of R79. -/
theorem resetSetsEveryRegister : Obligations.ResetSetsEveryRegister := by
  unfold Obligations.ResetSetsEveryRegister
  intro c r ws n x
  refine ⟨exec_reset, fun w legal rst => step_of_reset r ws n x legal rst, fun w legal running => ?_⟩
  exact ⟨_, stepIsTheFunctionOfR79 c r w ws n x legal, Regs.nextByR79_armed_of_armed running,
    Regs.nextByR79_samples running, Regs.nextByR79_tickCnt_of_no_tick running,
    Regs.nextByR79_tickCnt_of_tick_below running⟩

end Sys2Proof.Machine

/-! Proofs about decoding (30_encoding.md): packing and unpacking a cycle's inputs (R72), which rows of the operation
map a selector word selects (R78), and the operations of a cycle in their order (R79, R216). -/

namespace Sys2Proof

/-! ### Packing and unpacking (R72) -/

section
variable {c : Config}

theorem Inputs.toCiw_getLsbD_low (inp : Inputs c) {k : Nat} (low : k < 8) :
    inp.toCiw.getLsbD k = inp.controlByte.getLsbD k := by
  rw [Inputs.toCiw, BitVec.getLsbD_append, if_pos low]

theorem Inputs.toCiw_hall (inp : Inputs c) : inp.toCiw.extractLsb' 0 3 = inp.controlByte.extractLsb' 0 3 :=
  BitVec.extractLsb'_append_eq_of_add_le (by decide)

theorem Inputs.toCiw_captured (inp : Inputs c) : inp.toCiw.extractLsb' 8 c.capW = inp.captured :=
  BitVec.extractLsb'_append_eq_left

/-- R72: unpacking what was packed gives the inputs back. -/
@[simp] theorem Inputs.ofCiw_toCiw (inp : Inputs c) : Inputs.ofCiw inp.toCiw = inp := by
  obtain ⟨hall, correct, wrong, tick, warmup, rst⟩ := inp.controlByte_fields
  rw [Inputs.ofCiw, inp.toCiw_hall, inp.toCiw_captured, inp.toCiw_getLsbD_low (by decide : 3 < 8),
    inp.toCiw_getLsbD_low (by decide : 4 < 8), inp.toCiw_getLsbD_low (by decide : 5 < 8),
    inp.toCiw_getLsbD_low (by decide : 6 < 8), inp.toCiw_getLsbD_low (by decide : 7 < 8),
    hall, correct, wrong, tick, warmup, rst]

/-- A byte is the control byte of the fields that stand in it. -/
theorem byte_of_fields : ∀ b : Byte,
    BitVec.ofBool (b.getLsbD 7) ++ BitVec.ofBool (b.getLsbD 6) ++ BitVec.ofBool (b.getLsbD 5) ++
      BitVec.ofBool (b.getLsbD 4) ++ BitVec.ofBool (b.getLsbD 3) ++ b.extractLsb' 0 3 = b := by
  decide

/-- The control byte of an unpacked word is its low byte. -/
theorem Inputs.controlByte_ofCiw (w : Ciw c) : (Inputs.ofCiw w).controlByte = w.extractLsb' 0 8 := by
  have fields := byte_of_fields (w.extractLsb' 0 8)
  rw [BitVec.extractLsb'_extractLsb'_of_le (by decide)] at fields
  simpa [Inputs.controlByte, Inputs.ofCiw] using fields

/-- R81: every word is the word of its inputs, and no bit of it is dropped. -/
theorem Inputs.toCiw_ofCiw (w : Ciw c) : (Inputs.ofCiw w).toCiw = w := by
  rw [Inputs.toCiw, Inputs.controlByte_ofCiw]
  exact BitVec.extractLsb'_append_extractLsb'

end

/-! ### Selected rows (R78) -/

theorem mem_opIf {b : Bool} {i j : Instr} : i ∈ opIf b j ↔ i = j ∧ b = true := by
  cases b
  case false => exact iff_of_false List.not_mem_nil fun h => Bool.false_ne_true h.2
  case true => exact List.mem_singleton.trans (and_iff_left rfl).symm

/-- R78: the operations that the selector word selects, row after row. -/
theorem decode_eq_rows {c : Config} (s : Selector) (inp : Inputs c) :
    decode s inp =
      opIf (s &&& 0x10 == 0x10) .reset ++ (opIf (s &&& 0x10 == 0x00) (.edgeSample inp.lines) ++
      (opIf (s &&& 0x14 == 0x04) .evTick ++ (opIf (s &&& 0x11 == 0x01) (.evCorrect inp.captured.toNat) ++
      (opIf (s &&& 0x12 == 0x02) .evWrong ++ (opIf (s &&& 0x18 == 0x08) .evWarmup ++
      (opIf (s &&& 0x1F == 0x00) .idle ++ (opIf (s &&& 0x10 == 0x00) (.romRead (subst inp.hall)) ++
      opIf (s &&& 0x10 == 0x00) (.patUpdate inp.hall)))))))) := by
  simp only [decode, opRows, selectedOps_cons]
  simp only [OpRow.selected, List.filter_nil, List.map_nil, List.append_nil]

/-! ### The operations of a cycle (R77, R79) -/

/-- R77: the edge vector is 0 if there is no event. -/
theorem edges_eq_zero (q l : Lines) :
    (edges q l == 0) = !((l.tick && !q.tick) || (l.correct && !q.correct) || (l.wrong && !q.wrong) ||
      (l.warmup && !q.warmup)) := by
  obtain ⟨a, b, d, e⟩ := q
  obtain ⟨a', b', d', e'⟩ := l
  revert a b d e a' b' d' e'
  decide

theorem opIf_not (b : Bool) (i : Instr) : opIf (!b) i = if b then [] else [i] := by
  cases b <;> rfl

section
variable {c : Config} {inp : Inputs c}

/-- R78, R240: a reset cycle has RESET alone. -/
theorem decode_selector_of_reset (samples : Lines) (rst : inp.rst = true) :
    decode (inp.selector samples) inp = [.reset] := by
  rw [Inputs.selector, if_pos rst, decode_reset]

theorem selector_of_not_reset (samples : Lines) (running : inp.rst = false) :
    inp.selector samples = selectorWord false (edges samples inp.lines) :=
  if_neg (Bool.eq_false_iff.mp running)

/-- R79: any other cycle has the operations of its events between EDGE_SAMPLE and the pattern path. -/
theorem decode_selector_of_not_reset (samples : Lines) (running : inp.rst = false) :
    decode (inp.selector samples) inp =
      .edgeSample inp.lines ::
        (eventOps (edges samples inp.lines) inp ++ [.romRead (subst inp.hall), .patUpdate inp.hall]) := by
  rw [selector_of_not_reset samples running, decode_of_edges]

end

/-! ### The operation of a word (R72, R78) -/

/-- The row of the operation map that an operation stands in. -/
def Instr.row (i : Instr) : OpRow := ⟨(Laws.RowOfTable.bits i).1, (Laws.RowOfTable.bits i).2, i⟩

/-- In the inputs that the encoder packs for a well-formed operation, the row of its name has its operands. -/
theorem opRows_named {c : Config} {i : Instr} (wellFormed : i.wellFormed c = true) :
    (opRows (i.inputs c)).filter (fun row => row.op.mnemonic == i.mnemonic) = [i.row] := by
  cases i
  case evCorrect k =>
    have fits : (BitVec.ofNat c.capW k).toNat = k :=
      (BitVec.toNat_ofNat k c.capW).trans (Nat.mod_eq_of_lt (of_decide_eq_true wellFormed))
    exact congrArg (fun k => [Instr.row (.evCorrect k)]) fits
  case romRead a =>
    obtain ⟨notZero, notSeven⟩ := Bool.and_eq_true_iff.mp wellFormed
    have kept : subst a = a := subst_of_legal a (of_decide_eq_true notZero) (of_decide_eq_true notSeven)
    exact congrArg (fun a => [Instr.row (.romRead a)]) kept
  case reset => rfl
  case edgeSample lines => rfl
  case patUpdate hall => rfl
  case evTick => rfl
  case evWrong => rfl
  case evWarmup => rfl
  case idle => rfl

/-- From samples at 0 those inputs select the operation's row. -/
theorem row_selected (c : Config) (i : Instr) : i.row.selected ((i.inputs c).selector Lines.low) = true := by
  have reset : (selectorWord true 0 &&& 0x10 == 0x10) = true := by decide
  have always (l : Lines) : (selectorWord false (edges Lines.low l) &&& 0x10 == 0x00) = true := by
    obtain ⟨-, always, -⟩ := selected_of_edges (edges Lines.low l)
    exact always
  have tick : (selectorWord false (edges Lines.low ⟨false, false, true, false⟩) &&& 0x14 == 0x04) = true := by decide
  have correct : (selectorWord false (edges Lines.low ⟨true, false, false, false⟩) &&& 0x11 == 0x01) = true := by
    decide
  have wrong : (selectorWord false (edges Lines.low ⟨false, true, false, false⟩) &&& 0x12 == 0x02) = true := by decide
  have warmup : (selectorWord false (edges Lines.low ⟨false, false, false, true⟩) &&& 0x18 == 0x08) = true := by
    decide
  have idle : (selectorWord false (edges Lines.low Lines.low) &&& 0x1F == 0x00) = true := by decide
  cases i
  case reset => exact reset
  case edgeSample lines => exact always lines
  case patUpdate hall => exact always Lines.low
  case romRead a => exact always Lines.low
  case evTick => exact tick
  case evCorrect k => exact correct
  case evWrong => exact wrong
  case evWarmup => exact warmup
  case idle => exact idle

/-- The decoded operations of a name are those of the selected rows of that name. -/
theorem decode_filter_mnemonic {c : Config} (s : Selector) (inp : Inputs c) (name : String) :
    (decode s inp).filter (fun j => j.mnemonic == name) =
      (((opRows inp).filter (fun row => row.op.mnemonic == name)).filter (·.selected s)).map (·.op) := by
  rw [decode, List.filter_map, List.filter_filter, List.filter_filter]
  simp only [Function.comp_apply, Bool.and_comm]

/-! ### The host's table words (logs 8 and 9) -/

/-- A line that is to rise has its sample at 0, and so rises; a line that is not stays. -/
theorem edges_of_cleared_samples (q l : Lines) :
    edges ⟨q.correct && !l.correct, q.wrong && !l.wrong, q.tick && !l.tick, q.warmup && !l.warmup⟩ l =
      edges Lines.low l := by
  obtain ⟨a, b, d, e⟩ := q
  obtain ⟨a', b', d', e'⟩ := l
  revert a b d e a' b' d' e'
  decide

/-- From samples at 0 the lines of a selector word give the word back; a reset word loses its edge vector. -/
theorem selector_inputsOfSelector (c : Config) (s : Selector) :
    (inputsOfSelector c s).selector Lines.low = if s.getLsbD 4 then 0x10 else s := by
  have words : ∀ s : Selector,
      (if s.getLsbD 4 then selectorWord true 0 else selectorWord false (edges Lines.low (linesOfSelector s))) =
        if s.getLsbD 4 then 0x10 else s := by decide
  exact words s

/-- A selector word with the reset bit selects RESET alone, as 0x10 does. -/
theorem decode_reset_bit {c : Config} (s : Selector) (inp : Inputs c) :
    decode (if s.getLsbD 4 then 0x10 else s) inp = decode s inp := by
  have split : ∀ s : Selector, s.getLsbD 4 = true → s = selectorWord true (s.extractLsb' 0 4) := by decide
  cases rst : s.getLsbD 4
  case false => rfl
  case true => rw [split s rst, decode_reset]; exact decode_reset 0 inp

/-- The rows of a table word do not depend on the configuration, as its operand is 0 at every width. -/
theorem opRows_inputsOfSelector (c : Config) (s : Selector) :
    opRows (inputsOfSelector c s) = opRows (inputsOfSelector Config.default s) := by
  simp [opRows, inputsOfSelector, Inputs.quiet]

/-- Every selector word selects some operation. -/
theorem decode_ne_nil {c : Config} (s : Selector) (inp : Inputs c) : decode s inp ≠ [] := by
  have split : ∀ s : Selector, s = selectorWord (s.getLsbD 4) (s.extractLsb' 0 4) := by decide
  rw [split s]
  cases s.getLsbD 4
  case true => rw [decode_reset]; exact List.cons_ne_nil _ _
  case false => rw [decode_of_edges]; exact List.cons_ne_nil _ _

/-- The first element that satisfies `p`, or else the first, is an element. -/
theorem find_or_head_mem {α : Type} (p : α → Bool) {l : List α} (ne : l ≠ []) :
    ∃ a, (l.find? p).or l.head? = some a ∧ a ∈ l := by
  cases found : l.find? p with
  | some a => exact ⟨a, rfl, List.mem_of_find?_eq_some found⟩
  | none => exact ⟨l.head ne, List.head?_eq_some_head ne, List.head_mem ne⟩

/-- Log 8: the operation that a table word stands for is one of those it selects. -/
theorem decodeTableWord_mem_decode (c : Config) (nbits : Nat) {w : Nat} (h : w < 32) :
    ∃ i, decodeTableWord nbits w = some i ∧ i ∈ decode (BitVec.ofNat 5 w) (inputsOfSelector c (BitVec.ofNat 5 w)) := by
  have rows :
      (opRows (inputsOfSelector Config.default (BitVec.ofNat 5 w))).filter (·.selected (BitVec.ofNat 5 w)) ≠ [] :=
    fun empty => decode_ne_nil (BitVec.ofNat 5 w) (inputsOfSelector Config.default (BitVec.ofNat 5 w))
      (List.map_eq_nil_iff.mpr empty)
  obtain ⟨row, answer, selected⟩ := find_or_head_mem (fun row => row.mask != 0x10) rows
  rw [decodeTableWord, if_pos h, decode, opRows_inputsOfSelector]
  exact ⟨row.op, congrArg (Option.map _) answer, List.mem_map_of_mem selected⟩

/-! ### The statements -/

/-- Settles O3: packing puts every field where unpacking takes it. -/
theorem cycleInputWordRoundTrip : Obligations.CycleInputWordRoundTrip := by
  unfold Obligations.CycleInputWordRoundTrip
  exact fun c => ⟨Inputs.ofCiw_toCiw, Inputs.toCiw_ofCiw⟩

/-- Settles O4: an operation is decoded if it is that of a selected row. -/
theorem selectedByMaskAndMatch : Obligations.SelectedByMaskAndMatch := by
  unfold Obligations.SelectedByMaskAndMatch
  intro c s inp i
  simp only [decode_eq_rows, List.mem_append, mem_opIf, beq_iff_eq]
  simp only [or_assoc, or_left_comm, or_comm]

/-- Settles O5: the selector word of a cycle is that of reset, or of its edges. -/
theorem operationsOfACycleInOrder : Obligations.OperationsOfACycleInOrder := by
  unfold Obligations.OperationsOfACycleInOrder
  intro c r w inp
  rw [decodeWord]
  cases rst : inp.rst
  case true => exact decode_selector_of_reset _ rst
  case false =>
    obtain ⟨bit0, bit1, bit2, bit3⟩ := edges_bits r.samples inp.lines
    rw [decode_selector_of_not_reset _ rst, eventOps, bit0, bit1, bit2, bit3, edges_eq_zero, opIf_not,
      if_neg Bool.false_ne_true]
    simp only [opIf, List.append_assoc, List.singleton_append]
    rfl

/-- Settles O6: the one row of the operation's name has its operands and is selected. -/
theorem decodeOfEncode : Obligations.DecodeOfEncode := by
  unfold Obligations.DecodeOfEncode
  intro c i wellFormed
  rw [decodeWord, encode, Inputs.ofCiw_toCiw, decode_filter_mnemonic, opRows_named wellFormed,
    selectedOps_cons, row_selected]
  rfl

end Sys2Proof

namespace Sys2Proof.Machine

/-- Log 9: the word that `selectNext` queues, from the samples it leaves, selects what the selector word selects. -/
theorem decodeWord_selectNext (s : State) (w : Nat) :
    decodeWord (selectNext s w).regs.samples (selectNext s w).fetchWord =
      decode (if (BitVec.ofNat 5 w).getLsbD 4 then 0x10 else BitVec.ofNat 5 w)
        (inputsOfSelector s.cfg (BitVec.ofNat 5 w)) := by
  change decodeWord (selectNext s w).regs.samples (inputsOfSelector s.cfg (BitVec.ofNat 5 w)).toCiw = _
  have cleared : (inputsOfSelector s.cfg (BitVec.ofNat 5 w)).selector (selectNext s w).regs.samples =
      (inputsOfSelector s.cfg (BitVec.ofNat 5 w)).selector Lines.low :=
    congrArg (fun e => if (BitVec.ofNat 5 w).getLsbD 4 then selectorWord true 0 else selectorWord false e)
      (edges_of_cleared_samples s.regs.samples (linesOfSelector (BitVec.ofNat 5 w)))
  rw [decodeWord, Inputs.ofCiw_toCiw, cleared, selector_inputsOfSelector]

/-- Settles O7: the queued word rises the lines of the selector word, and the operation of the table is one that it
selects. -/
theorem tableWordRunsNext : Obligations.TableWordRunsNext := by
  unfold Obligations.TableWordRunsNext
  intro s nbits w h legal u
  have word : ∀ w < 32, (if (BitVec.ofNat 5 w).getLsbD 4 then 0x10 else BitVec.ofNat 5 w) =
      if w < 16 then BitVec.ofNat 5 w else (0x10 : Selector) := by decide
  have ops := decodeWord_selectNext s w
  obtain ⟨t, edge⟩ := clockEdge_next u
  obtain ⟨i, answer, selected⟩ := decodeTableWord_mem_decode s.cfg nbits h
  refine ⟨word w h ▸ ops, ⟨_, (step_of_legal (s := u) legal).trans edge⟩, i, answer, ?_⟩
  rw [← decode_reset_bit, ← ops] at selected
  exact selected

end Sys2Proof.Machine

/-! Proofs about one cycle (30_encoding.md R79, R80): the step as a run of the decoded operations, as the software's
order, and what a cycle leaves in single registers. -/

namespace Sys2Proof.Machine

/-! ### A cycle as a run of its operations -/

section
variable {c : Config} {r : Regs c} {ws : List (Ciw c)} {n : Nat} {x : Wires}

/-- R50: without ROM_READ, which PAT_UPDATE issues, a cycle has its edges, its events and the pattern. -/
theorem withoutRomRead_of_not_reset {inp : Inputs c} (samples : Lines) (running : inp.rst = false) :
    (decode (inp.selector samples) inp).filter (fun i => i.mnemonic != "ROM_READ") =
      .edgeSample inp.lines :: (eventOps (edges samples inp.lines) inp ++ [.patUpdate inp.hall]) := by
  have keep (e : EdgeVector) :
      (eventOps e inp).filter (fun i => i.mnemonic != "ROM_READ") = eventOps e inp := by
    simp [eventOps, List.filter_append, filter_opIf, Instr.mnemonic]
  rw [decode_selector_of_not_reset samples running, List.filter_cons_of_pos (by rfl), List.filter_append, keep]
  rfl

/-- R79: a cycle is the run of its operations, from pulses at 0 if it is no reset cycle. -/
theorem runCycle_eq_runOps (inp : Inputs c) :
    runCycle inp ⟨c, r, ws, n, x⟩ =
      runOps ((decode (inp.selector r.samples) inp).filter (fun i => i.mnemonic != "ROM_READ"))
        ⟨c, if inp.rst then r else r.clearPulses, ws, n, x⟩ := by
  cases rst : inp.rst
  case true => rw [runCycle, if_pos rst, decode_reset, decode_selector_of_reset _ rst]; rfl
  case false =>
    rw [runCycle, if_neg (Bool.eq_false_iff.mp rst), exec_edgeSample_openCycle, andThen_next, issued_of_edges,
      withoutRomRead_of_not_reset _ rst]
    rfl

/-! ### The software's order (R80) -/

/-- The registers of the source's software agree: the flags, the interval and the tick counter. -/
def Regs.Agree (r q : Regs c) : Prop := r.flags = q.flags ∧ r.intervalNs = q.intervalNs ∧ r.tickCnt = q.tickCnt

theorem Regs.onTick_agree {q : Regs c} (te : Bool) (agree : r.Agree q) : (r.onTick te).Agree (q.onTick te) := by
  obtain ⟨flags, interval, counter⟩ := agree
  rw [onTick, onTick, flags, interval, counter]
  exact ⟨rfl, interval, rfl⟩

/-- No operation reads another register for what it writes in those. -/
theorem exec_agree (i : Instr) {q : Regs c} (agree : r.Agree q) (x y : Wires) :
    ∃ (r' q' : Regs c) (x' y' : Wires), exec i ⟨c, r, ws, n, x⟩ = .next ⟨c, r', ws, n, x'⟩ ∧
      exec i ⟨c, q, ws, n, y⟩ = .next ⟨c, q', ws, n, y'⟩ ∧ r'.Agree q' := by
  obtain ⟨flags, interval, counter⟩ := agree
  cases i
  case reset => exact ⟨_, _, _, _, exec_reset, exec_reset, rfl, rfl, rfl⟩
  case edgeSample lines => exact ⟨_, _, _, _, rfl, rfl, flags, interval, counter⟩
  case patUpdate hall => exact ⟨_, _, _, _, exec_patUpdate hall, exec_patUpdate hall, flags, interval, counter⟩
  case romRead addr => exact ⟨_, _, _, _, rfl, rfl, flags, interval, counter⟩
  case evTick => exact ⟨_, _, _, _, exec_evTick, exec_evTick, Regs.onTick_agree true ⟨flags, interval, counter⟩⟩
  case evCorrect k => exact ⟨_, _, _, _, exec_evCorrect k, exec_evCorrect k, rfl, rfl, counter⟩
  case evWrong => exact ⟨_, _, _, _, exec_evWrong, exec_evWrong, rfl, interval, counter⟩
  case evWarmup => exact ⟨_, _, _, _, exec_evWarmup, exec_evWarmup, flags, interval, counter⟩
  case idle => exact ⟨_, _, _, _, exec_idle, exec_idle, flags, interval, counter⟩

theorem runOps_agree (is : List Instr) {r q : Regs c} (agree : r.Agree q) (x y : Wires) :
    ∃ (r' q' : Regs c) (x' y' : Wires), runOps is ⟨c, r, ws, n, x⟩ = .next ⟨c, r', ws, n, x'⟩ ∧
      runOps is ⟨c, q, ws, n, y⟩ = .next ⟨c, q', ws, n, y'⟩ ∧ r'.Agree q' := by
  induction is generalizing r q x y with
  | nil => exact ⟨r, q, x, y, rfl, rfl, agree⟩
  | cons i is ih =>
    obtain ⟨r', q', x', y', left, right, agree'⟩ := exec_agree i agree x y
    rw [runOps_cons, runOps_cons, left, right, andThen_next, andThen_next]
    exact ih agree' x' y'

/-- R80: the software's steps for the events of a cycle, in their order. -/
def softwareSteps (te ce we pe : Bool) (inp : Inputs c) : List Instr :=
  opIf te .evTick ++ opIf ce (.evCorrect inp.captured.toNat) ++ opIf we .evWrong ++ opIf pe .evWarmup ++
    [.patUpdate inp.hall]

/-- From pulses at 0 the software's steps have the effect of the event steps and the pattern. -/
theorem runOps_softwareSteps (te ce we pe : Bool) (inp : Inputs c) (hrep : r.report = ⟨false, 0, 0⟩)
    (hackC : r.ackC = false) (hackW : r.ackW = false) :
    runOps (softwareSteps te ce we pe inp) ⟨c, r, ws, n, x⟩ =
      .next ⟨c, (r.onEvents te ce we pe inp.captured).writePattern (rom (subst inp.hall)), ws, n,
        { x with romData := rom (subst inp.hall) }⟩ := by
  rw [softwareSteps, runOps_append, runOps_append, runOps_append, runOps_append, runOps_opIf_evTick _ hrep,
    andThen_next, runOps_opIf_evCorrect (r := r.onTick _) _ inp.captured hackC, andThen_next,
    runOps_opIf_evWrong (r := (r.onTick _).onCorrect _ _) _ hackW, andThen_next,
    runOps_opIf_evWarmup, andThen_next, runOps_cons, exec_patUpdate]
  rfl

end

/-! ### Single registers after a cycle -/

namespace Regs

section
variable {c : Config} {r : Regs c} {w : Ciw c}

/-- R150: a boundary tick restarts the counter. -/
theorem nextByR79_tickCnt_of_boundary (running : notReset w) (tick : tickEvent r w = true) (boundary : atBoundary r) :
    (r.nextByR79 (Inputs.ofCiw w)).tickCnt = 0 := by
  rw [nextByR79_tickCnt running, tick, tickStep_boundary _ _ boundary]

/-- R155: without a tick event there is no report, and none off the boundary. -/
theorem nextByR79_report_off_boundary (off : ¬(tickEvent r w = true ∧ atBoundary r)) :
    (r.nextByR79 (Inputs.ofCiw w)).report = ⟨false, 0, 0⟩ :=
  nextByR79_report_of_no_report fun ⟨_, tick, boundary, _⟩ => off ⟨tick, boundary⟩

theorem onEvents_none (k : BitVec c.capW) (hrep : r.report = ⟨false, 0, 0⟩) (hackC : r.ackC = false)
    (hackW : r.ackW = false) : r.onEvents false false false false k = r := by
  rw [onEvents, onTick_false hrep, onCorrect_false k hackC, onWrong_false hackW, onWarmup_false]

/-- R79: without reset, in the events of the cycle's word. -/
theorem nextByR79_of_events (running : notReset w) :
    r.nextByR79 (Inputs.ofCiw w) =
      ((r.clearPulses.writeSamples (ciwLines w)).onEvents (tickEvent r w) (correctEvent r w) (wrongEvent r w)
        (warmupEvent r w) (Inputs.ofCiw w).captured).writePattern (rom (subst (Inputs.ofCiw w).hall)) :=
  nextByR79_of_not_reset r running

/-- R128: a cycle with no event drops the pulses, records the lines and loads the pattern. -/
theorem nextByR79_of_no_event (running : notReset w) (correct : correctEvent r w = false)
    (wrong : wrongEvent r w = false) (tick : tickEvent r w = false) (warmup : warmupEvent r w = false) :
    r.nextByR79 (Inputs.ofCiw w) =
      (r.clearPulses.writeSamples (ciwLines w)).writePattern (rom (subst (Inputs.ofCiw w).hall)) := by
  rw [nextByR79_of_events running, correct, wrong, tick, warmup, onEvents_none _ rfl rfl rfl]

/-- Other values of the pattern path's own registers. -/
def withPatternPath (r : Regs c) (b : Byte) (l : Bool) : Regs c := { r with pattern := b, latchReq := l }

/-- R183: the step function of R79 uses `hall_in`, `PATTERN` and `LATCH_REQ` for the pattern path alone. -/
theorem nextByR79_withPatternPath {i j : Inputs c} (b : Byte) (l : Bool) (lines : i.lines = j.lines)
    (captured : i.captured = j.captured) (rst : i.rst = j.rst) :
    (r.withPatternPath b l).nextByR79 j =
      (r.nextByR79 i).withPatternPath ((r.withPatternPath b l).nextByR79 j).pattern
        ((r.withPatternPath b l).nextByR79 j).latchReq := by
  cases hrst : j.rst
  case true => rw [nextByR79_of_reset _ hrst, nextByR79_of_reset r (rst.trans hrst)]; rfl
  case false =>
    rw [nextByR79_of_not_reset _ hrst, nextByR79_of_not_reset r (rst.trans hrst), lines, captured]
    rfl

end

end Regs

/-! ### The statements -/

/-- Settles O8: a clock edge is a cycle on the queued word, and a cycle the run of its operations. -/
theorem stepRunsDecodedOperations : Obligations.StepRunsDecodedOperations := by
  unfold Obligations.StepRunsDecodedOperations
  intro c r w ws n x legal
  rw [step_of_legal (s := ⟨c, r, w :: ws, n, x⟩) legal, clockEdge, fetchWord_queued, afterFetch_queued,
    runCycle_eq_runOps]
  rfl

/-- Settles O10: the cycle of the free word, which the clock edge reads from an empty queue. -/
theorem undrivenCycleReadsAFreeWord : Obligations.UndrivenCycleReadsAFreeWord := by
  unfold Obligations.UndrivenCycleReadsAFreeWord
  intro c r n x legal
  obtain ⟨y, hcycle⟩ := runCycle_eq_nextByR79 (r := r) (ws := []) (n := n + 1) (x := x)
    (Inputs.ofCiw (BitVec.ofNat _ (Config.freeCiw n)))
  have edge : clockEdge ⟨c, r, [], n, x⟩ =
      andThen (runCycle (Inputs.ofCiw (BitVec.ofNat _ (Config.freeCiw n))) ⟨c, r, [], n + 1, x⟩)
        (fun t => .next t.closeCycle) := rfl
  rw [step_of_legal (s := ⟨c, r, [], n, x⟩) legal, edge, hcycle, andThen_next]
  rfl

/-- Settles O11: the step is the run of the software's steps from pulses at 0, which agrees with their run from the
registers as they are. -/
theorem cycleIsTheSoftwareOrder : Obligations.CycleIsTheSoftwareOrder := by
  unfold Obligations.CycleIsTheSoftwareOrder
  intro c r w ws n x legal running
  have cleared : (r.clearPulses.writeSamples (ciwLines w)).Agree r := ⟨rfl, rfl, rfl⟩
  have cycle := runOps_softwareSteps (ws := ws) (n := n) (x := x) (r := r.clearPulses.writeSamples (ciwLines w))
    (tickEvent r w) (correctEvent r w) (wrongEvent r w) (warmupEvent r w) (Inputs.ofCiw w) rfl rfl rfl
  rw [← Regs.nextByR79_of_events running] at cycle
  obtain ⟨t, u, y, z, fromCleared, software, agree⟩ := runOps_agree (ws := ws) (n := n)
    (softwareSteps (tickEvent r w) (correctEvent r w) (wrongEvent r w) (warmupEvent r w) (Inputs.ofCiw w)) cleared x x
  cases cycle.symm.trans fromCleared
  exact ⟨_, u, z, stepIsTheFunctionOfR79 c r w ws n x legal, software, agree⟩

/-- Settles O22: from the latch and the acknowledges of R79, with or without reset. -/
theorem latchAndAcknowledgeStates : Obligations.LatchAndAcknowledgeStates := by
  unfold Obligations.LatchAndAcknowledgeStates
  intro c r w ws n x legal
  refine ⟨_, stepIsTheFunctionOfR79 c r w ws n x legal, ?_⟩
  by_cases rst : (Inputs.ofCiw w).rst = true
  · rw [Regs.nextByR79_of_reset r rst]
    have noEvent (event : Prop) : ¬(notReset w ∧ event) :=
      fun ⟨running, _⟩ => Bool.false_ne_true (running.symm.trans rst)
    exact ⟨iff_of_true rfl rst, iff_of_false Bool.false_ne_true (noEvent _),
      iff_of_false Bool.false_ne_true (noEvent _)⟩
  · have running : notReset w := Bool.eq_false_iff.mpr rst
    rw [Regs.nextByR79_latchReq running, Regs.nextByR79_ackC running, Regs.nextByR79_ackW running]
    exact ⟨iff_of_false (Ne.symm Bool.false_ne_true) rst, (and_iff_right running).symm, (and_iff_right running).symm⟩

/-- Settles O23: IDLE drops the pulses, and a cycle with no event has no other effect but on the samples and the
pattern. -/
theorem idleHoldsEverythingElse : Obligations.IdleHoldsEverythingElse := by
  unfold Obligations.IdleHoldsEverythingElse
  refine ⟨fun c r ws n x => exec_idle, fun c r w ws n x legal running correct wrong tick warmup => ?_⟩
  rw [stepIsTheFunctionOfR79 c r w ws n x legal, Regs.nextByR79_of_no_event running correct wrong tick warmup]
  rfl

/-- Settles O26: the cases of the tick step. -/
theorem tickCounts : Obligations.TickCounts := by
  unfold Obligations.TickCounts
  refine ⟨fun c r ws n x below => ?_, fun c r w ws n x legal running => ?_⟩
  · rw [exec_evTick, Regs.onTick, tickStep_below _ _ below]
    rfl
  · refine ⟨_, stepIsTheFunctionOfR79 c r w ws n x legal, fun quiet => ?_, fun tick below => ?_,
      Regs.nextByR79_tickCnt_of_boundary running⟩
    · exact ⟨Regs.nextByR79_tickCnt_of_no_tick running quiet,
        Regs.nextByR79_report_off_boundary fun ⟨tick, _⟩ => Bool.false_ne_true (quiet.symm.trans tick)⟩
    · exact ⟨Regs.nextByR79_tickCnt_of_tick_below running tick below,
        Regs.nextByR79_report_off_boundary fun ⟨_, boundary⟩ => below boundary⟩

/-- Settles O38: the pattern of R79 comes of `hall_in` alone, and nothing else comes of the pattern path. -/
theorem patternPathIsIndependent : Obligations.PatternPathIsIndependent := by
  unfold Obligations.PatternPathIsIndependent
  refine ⟨fun c r q v w ws n x legal runningV runningW hall => ?_,
    fun c r b l v w ws n x legal lines captured rst => ?_⟩
  · refine ⟨_, _, stepIsTheFunctionOfR79 c r v ws n x legal, stepIsTheFunctionOfR79 c q w ws n x legal, ?_, ?_⟩
    · rw [Regs.nextByR79_pattern runningV, Regs.nextByR79_pattern runningW, hall]
    · rw [Regs.nextByR79_latchReq runningV, Regs.nextByR79_latchReq runningW]
  · exact ⟨_, _, stepIsTheFunctionOfR79 c r v ws n x legal,
      stepIsTheFunctionOfR79 c (r.withPatternPath b l) w ws n x legal,
      Regs.nextByR79_withPatternPath b l lines captured rst⟩

end Sys2Proof.Machine

/-! Proofs about runs: what each step of a run without reset does to the counters (R150, R185) and the flags, and by
induction over the words, what a whole run leaves in them. -/

namespace Sys2Proof.Machine

/-! ### Running over queued words -/

/-- The registers after the cycles of `ws`, by the step function of R79. -/
def Regs.after {c : Config} (r : Regs c) : List (Ciw c) → Regs c
  | [] => r
  | w :: ws => (r.nextByR79 (Inputs.ofCiw w)).after ws

theorem Regs.after_append {c : Config} (r : Regs c) (vs ws : List (Ciw c)) :
    r.after (vs ++ ws) = (r.after vs).after ws := by
  induction vs generalizing r with
  | nil => rfl
  | cons v vs ih => exact ih _

theorem run_succ_of_step (M : Host.Core) {s t : M.State} (k : Nat) (h : M.step s = .next t) :
    M.run (k + 1) s = M.run k t := by
  rw [Host.Core.run, h]

section
variable {c : Config}

/-- A run that uses up its queue leaves the registers of R79, cycle after cycle. -/
theorem run_driven (legal : c.legal = true) (r : Regs c) (ws : List (Ciw c)) (n : Nat) (x : Wires) :
    Sys2Proof.core.run ws.length (⟨c, r, ws, n, x⟩ : State) =
      .next (⟨c, r.after ws, [], n, if ws = [] then x else ⟨0, 0⟩⟩ : State) := by
  induction ws generalizing r x with
  | nil => rfl
  | cons w ws ih =>
    refine (run_succ_of_step core _ (stepIsTheFunctionOfR79 c r w ws n x legal)).trans ((ih _ _).trans ?_)
    rw [ite_self, if_neg (List.cons_ne_nil w ws)]
    rfl

/-- The same for a queue that is not empty, after which the wires are idle. -/
theorem run_driven_of_ne_nil (legal : c.legal = true) (r : Regs c) {ws : List (Ciw c)} (n : Nat) (x : Wires)
    (ne : ws ≠ []) :
    Sys2Proof.core.run ws.length (⟨c, r, ws, n, x⟩ : State) = .next (⟨c, r.after ws, [], n, ⟨0, 0⟩⟩ : State) :=
  (run_driven legal r ws n x).trans (by rw [if_neg ne])

theorem statesAfter_cons (legal : c.legal = true) (r : Regs c) (w : Ciw c) (ws : List (Ciw c)) (n : Nat) (x : Wires) :
    statesAfter (w :: ws).length ⟨c, r, w :: ws, n, x⟩ =
      ⟨c, r.nextByR79 (Inputs.ofCiw w), ws, n, ⟨0, 0⟩⟩ ::
        statesAfter ws.length ⟨c, r.nextByR79 (Inputs.ofCiw w), ws, n, ⟨0, 0⟩⟩ := by
  rw [List.length_cons, statesAfter, stepIsTheFunctionOfR79 c r w ws n x legal]

theorem statesAfter_length (legal : c.legal = true) (r : Regs c) (ws : List (Ciw c)) (n : Nat) (x : Wires) :
    (statesAfter ws.length ⟨c, r, ws, n, x⟩).length = ws.length := by
  induction ws generalizing r x with
  | nil => rfl
  | cons w ws ih => rw [statesAfter_cons legal, List.length_cons, ih, List.length_cons]

/-! ### Counting the rises of a line (R121) -/

/-- Of a run's events on a line, the first cycle's is against the sample, and the others are those of the rest of the
run, since the samples record the line. -/
theorem rises_cons (line : Lines → Bool) (r : Regs c) {w : Ciw c} (running : notReset w) (ws : List (Ciw c)) :
    rises (line r.samples) ((w :: ws).map fun v => line (ciwLines v)) =
      (line (ciwLines w) && !line r.samples).toNat +
        rises (line (r.nextByR79 (Inputs.ofCiw w)).samples) (ws.map fun v => line (ciwLines v)) := by
  rw [Regs.nextByR79_samples running, List.map_cons, rises, Bool.toNat, Bool.cond_eq_ite]

theorem rises_tick_cons (r : Regs c) {w : Ciw c} (running : notReset w) (ws : List (Ciw c)) :
    rises r.samples.tick ((w :: ws).map fun v => (ciwLines v).tick) =
      (tickEvent r w).toNat +
        rises (r.nextByR79 (Inputs.ofCiw w)).samples.tick (ws.map fun v => (ciwLines v).tick) :=
  rises_cons Lines.tick r running ws

/-- The last cycle adds its own event to the rises before it. -/
theorem rises_concat (line : Lines → Bool) (r : Regs c) (ws : List (Ciw c)) (w : Ciw c)
    (running : ∀ v ∈ ws, notReset v) :
    rises (line r.samples) ((ws ++ [w]).map fun v => line (ciwLines v)) =
      rises (line r.samples) (ws.map fun v => line (ciwLines v)) +
        (line (ciwLines w) && !line (r.after ws).samples).toNat := by
  induction ws generalizing r with
  | nil => rw [List.nil_append, List.map_singleton, rises, Nat.add_comm, Bool.toNat, Bool.cond_eq_ite]; rfl
  | cons v ws ih =>
    obtain ⟨first, rest⟩ := List.forall_mem_cons.mp running
    rw [List.cons_append, rises_cons line r first, rises_cons line r first, ih _ rest, Nat.add_assoc, Regs.after]

theorem rises_tick_concat (r : Regs c) (ws : List (Ciw c)) (w : Ciw c) (running : ∀ v ∈ ws, notReset v) :
    rises r.samples.tick ((ws ++ [w]).map fun v => (ciwLines v).tick) =
      rises r.samples.tick (ws.map fun v => (ciwLines v).tick) + (tickEvent (r.after ws) w).toNat :=
  rises_concat Lines.tick r ws w running

/-- A pulse register that each cycle writes with its event is up in as many states as the line rises. -/
theorem countP_pulse_eq_rises (legal : c.legal = true) (pulse : State → Bool) (line : Lines → Bool)
    (write : ∀ (r : Regs c) (w : Ciw c) (ws : List (Ciw c)) (n : Nat), notReset w →
      pulse ⟨c, r.nextByR79 (Inputs.ofCiw w), ws, n, ⟨0, 0⟩⟩ = (line (ciwLines w) && !line r.samples))
    (r : Regs c) (ws : List (Ciw c)) (n : Nat) (x : Wires) (running : ∀ w ∈ ws, notReset w) :
    (statesAfter ws.length ⟨c, r, ws, n, x⟩).countP pulse =
      rises (line r.samples) (ws.map fun w => line (ciwLines w)) := by
  induction ws generalizing r x with
  | nil => rfl
  | cons w ws ih =>
    obtain ⟨first, rest⟩ := List.forall_mem_cons.mp running
    rw [statesAfter_cons legal, List.countP_cons, ih _ _ rest, write r w ws n first, rises_cons line r first,
      Nat.add_comm, Bool.toNat, Bool.cond_eq_ite]

/-! ### The tick counter along a run (R150, R156) -/

theorem toNat_add_one_of_lt {width : Nat} {t : BitVec width} (h : t.toNat + 1 < 2 ^ width) :
    (t + 1).toNat = t.toNat + 1 := by
  have one : (1 : BitVec width).toNat = 1 := Nat.mod_eq_of_lt (Nat.lt_of_le_of_lt (Nat.le_add_left 1 _) h)
  rw [BitVec.toNat_add_of_lt (by rw [one]; exact h), one]

/-- The counter does not wrap before it reaches the period. -/
theorem tickCnt_succ_toNat (legal : c.legal = true) {t : BitVec c.tickW} (below : t.toNat < c.pReport) :
    (t + 1).toNat = t.toNat + 1 := by
  obtain ⟨-, fits, -⟩ := (legal_iff_ranges c).mp legal
  exact toNat_add_one_of_lt (by omega)

namespace Regs

/-- R150: a cycle counts its tick event modulo the period. -/
theorem nextByR79_tickCnt_toNat (legal : c.legal = true) {r : Regs c} (below : r.tickBelowPeriod) {w : Ciw c}
    (running : notReset w) :
    (r.nextByR79 (Inputs.ofCiw w)).tickCnt.toNat = (r.tickCnt.toNat + (tickEvent r w).toNat) % c.pReport := by
  have succ := tickCnt_succ_toNat legal below
  rw [nextByR79_tickCnt running]
  cases tickEvent r w
  case false => exact (Nat.mod_eq_of_lt below).symm
  case true =>
    by_cases boundary : atBoundary r
    · rw [tickStep_boundary _ _ boundary, Bool.toNat_true, ← succ, boundary, Nat.mod_self]
      rfl
    · rw [tickStep_below _ _ boundary, Bool.toNat_true, ← succ, Nat.mod_eq_of_lt (by omega)]

/-- R37: no cycle takes the counter to the period. -/
theorem nextByR79_tickBelowPeriod (legal : c.legal = true) {r : Regs c} (below : r.tickBelowPeriod) {w : Ciw c}
    (running : notReset w) : (r.nextByR79 (Inputs.ofCiw w)).tickBelowPeriod := by
  rw [tickBelowPeriod, nextByR79_tickCnt_toNat legal below running]
  exact Nat.mod_lt _ (by omega)

/-- R150: before the boundary the counter counts without restarting. -/
theorem nextByR79_tickCnt_toNat_of_early (legal : c.legal = true) {r : Regs c} {w : Ciw c} (running : notReset w)
    (early : r.tickCnt.toNat + (tickEvent r w).toNat < c.pReport) :
    (r.nextByR79 (Inputs.ofCiw w)).tickCnt.toNat = r.tickCnt.toNat + (tickEvent r w).toNat := by
  have below : r.tickBelowPeriod := Nat.lt_of_le_of_lt (Nat.le_add_right _ _) early
  rw [nextByR79_tickCnt_toNat legal below running, Nat.mod_eq_of_lt early]

/-- R156: the counter is the number of tick events modulo the period. -/
theorem after_tickCnt_toNat (legal : c.legal = true) {r : Regs c} (below : r.tickBelowPeriod) {ws : List (Ciw c)}
    (running : ∀ w ∈ ws, notReset w) :
    (r.after ws).tickCnt.toNat =
      (r.tickCnt.toNat + rises r.samples.tick (ws.map fun w => (ciwLines w).tick)) % c.pReport := by
  induction ws generalizing r with
  | nil => exact (Nat.mod_eq_of_lt below).symm
  | cons w ws ih =>
    obtain ⟨first, rest⟩ := List.forall_mem_cons.mp running
    rw [after, ih (nextByR79_tickBelowPeriod legal below first) rest, nextByR79_tickCnt_toNat legal below first,
      rises_tick_cons r first, Nat.mod_add_mod, Nat.add_assoc]

theorem reset_tickCnt_toNat (c : Config) : (reset c).tickCnt.toNat = 0 := Nat.zero_mod _

theorem reset_tickBelowPeriod (legal : c.legal = true) : (reset c).tickBelowPeriod := by
  obtain ⟨positive, -⟩ := (legal_iff_ranges c).mp legal
  rw [tickBelowPeriod, reset_tickCnt_toNat]
  exact positive

/-- R155: a cycle that leaves a report had a boundary tick. -/
theorem boundary_of_nextByR79_report {r : Regs c} {w : Ciw c}
    (report : (r.nextByR79 (Inputs.ofCiw w)).report.valid = true) : tickEvent r w = true ∧ atBoundary r := by
  by_contra off
  rw [nextByR79_report_off_boundary off] at report
  exact Bool.false_ne_true report

end Regs

/-- R157: each report uses up a whole period of tick events. -/
theorem period_mul_reports_le (legal : c.legal = true) {r : Regs c} (below : r.tickBelowPeriod) (ws : List (Ciw c))
    (n : Nat) (x : Wires) (running : ∀ w ∈ ws, notReset w) :
    c.pReport * (statesAfter ws.length ⟨c, r, ws, n, x⟩).countP (fun t => t.regs.report.valid) ≤
      r.tickCnt.toNat + rises r.samples.tick (ws.map fun w => (ciwLines w).tick) := by
  induction ws generalizing r x with
  | nil => exact Nat.zero_le _
  | cons w ws ih =>
    obtain ⟨first, rest⟩ := List.forall_mem_cons.mp running
    have later := ih (Regs.nextByR79_tickBelowPeriod legal below first) ⟨0, 0⟩ rest
    rw [Regs.nextByR79_tickCnt_toNat legal below first] at later
    rw [statesAfter_cons legal, List.countP_cons, rises_tick_cons r first]
    split
    case isTrue report =>
      obtain ⟨tick, boundary⟩ := Regs.boundary_of_nextByR79_report report
      have full : r.tickCnt.toNat + (tickEvent r w).toNat = c.pReport := by
        rw [tick, Bool.toNat_true, ← tickCnt_succ_toNat legal below, boundary]
      rw [full, Nat.mod_self] at later
      rw [Nat.mul_add_one]
      omega
    case isFalse =>
      have counted := Nat.mod_le (r.tickCnt.toNat + (tickEvent r w).toNat) c.pReport
      rw [Nat.add_zero]
      omega

/-! ### The last event before a boundary (R158) -/

namespace Regs

/-- Cycles with no classifier event and no boundary tick keep the flags and the interval. -/
theorem after_keeps_flags (legal : c.legal = true) {r : Regs c} {ws : List (Ciw c)} (running : ∀ w ∈ ws, notReset w)
    (correct : rises r.samples.correct (ws.map fun w => (ciwLines w).correct) = 0)
    (wrong : rises r.samples.wrong (ws.map fun w => (ciwLines w).wrong) = 0)
    (early : r.tickCnt.toNat + rises r.samples.tick (ws.map fun w => (ciwLines w).tick) < c.pReport) :
    (r.after ws).flags = r.flags ∧ (r.after ws).intervalNs = r.intervalNs := by
  induction ws generalizing r with
  | nil => exact ⟨rfl, rfl⟩
  | cons w ws ih =>
    obtain ⟨first, rest⟩ := List.forall_mem_cons.mp running
    have below : r.tickBelowPeriod := Nat.lt_of_le_of_lt (Nat.le_add_right _ _) early
    rw [rises_cons Lines.correct r first, Nat.add_eq_zero_iff, Bool.toNat_eq_zero] at correct
    rw [rises_cons Lines.wrong r first, Nat.add_eq_zero_iff, Bool.toNat_eq_zero] at wrong
    rw [rises_tick_cons r first, ← Nat.add_assoc] at early
    obtain ⟨noCorrect, correctRest⟩ := correct
    obtain ⟨noWrong, wrongRest⟩ := wrong
    have offBoundary : ¬(tickEvent r w = true ∧ atBoundary r) := by
      rintro ⟨tick, boundary⟩
      have reached := (tickCnt_succ_toNat legal below).symm.trans boundary
      rw [tick, Bool.toNat_true] at early
      omega
    have counted := nextByR79_tickCnt_toNat_of_early legal first (Nat.lt_of_le_of_lt (Nat.le_add_right _ _) early)
    obtain ⟨flags, interval⟩ := ih rest correctRest wrongRest (counted ▸ early)
    exact ⟨flags.trans ((nextByR79_flags_of_no_event first noWrong noCorrect).trans
        (tickStep_flags_off_boundary _ _ offBoundary)),
      interval.trans (nextByR79_intervalNs_of_no_correct first noCorrect)⟩

/-- R150: the tick event that fills the period is on the boundary. -/
theorem boundary_of_period_filled (legal : c.legal = true) {r : Regs c} {ws : List (Ciw c)} {w : Ciw c}
    (running : ∀ v ∈ ws, notReset v)
    (filled : r.tickCnt.toNat + rises r.samples.tick ((ws ++ [w]).map fun v => (ciwLines v).tick) = c.pReport)
    (early : r.tickCnt.toNat + rises r.samples.tick (ws.map fun v => (ciwLines v).tick) + 1 = c.pReport) :
    tickEvent (r.after ws) w = true ∧ atBoundary (r.after ws) := by
  have below : r.tickBelowPeriod := by rw [tickBelowPeriod]; omega
  have counted := after_tickCnt_toNat legal below running
  rw [Nat.mod_eq_of_lt (by omega)] at counted
  rw [rises_tick_concat r ws w running] at filled
  constructor
  · exact Bool.toNat_eq_one.mp (by omega)
  · rw [atBoundary, tickCnt_succ_toNat legal (by omega)]
    omega

/-- R158: what the boundary reports after an event of which the flags and the interval are kept. -/
theorem evaluate_after_event {r q : Regs c} {v : Ciw c} (running : notReset v)
    (event : correctEvent r v = true ∨ wrongEvent r v = true)
    (flags : q.flags = (r.nextByR79 (Inputs.ofCiw v)).flags)
    (interval : q.intervalNs = (r.nextByR79 (Inputs.ofCiw v)).intervalNs) :
    evaluate q.flags q.intervalNs =
      (⟨false, false⟩, if wrongEvent r v then ⟨true, 2, 0⟩ else ⟨true, 1, intervalOf v⟩) := by
  cases wrong : wrongEvent r v
  case true => rw [flags, nextByR79_flags_of_wrong running wrong, evaluate_wrong, if_pos rfl]
  case false =>
    have correct := event.resolve_right (Bool.eq_false_iff.mp wrong)
    rw [flags, interval, nextByR79_flags_of_correct running wrong correct,
      nextByR79_intervalNs_of_correct running correct, evaluate_correct, if_neg Bool.false_ne_true]

end Regs

/-! ### The warm-up latch along a run (R185, R186) -/

namespace Regs

/-- The warm-up registers when `pulses` warm-up events have come since reset. -/
def WarmedBy (r : Regs c) (pulses : Nat) : Prop :=
  r.armed = decide (c.warmupPulses ≤ pulses) ∧ r.warmCnt.toNat = min pulses c.warmupPulses

theorem reset_warmedBy (c : Config) : (reset c).WarmedBy 0 :=
  ⟨decide_eq_decide.mpr Nat.le_zero.symm, (Nat.zero_min _).symm⟩

/-- R38 says that some number of warm-up events has come. -/
theorem warmupConsistent_iff_warmedBy {r : Regs c} : r.warmupConsistent ↔ ∃ pulses, r.WarmedBy pulses := by
  constructor
  · rintro ⟨atZero, positive⟩
    refine ⟨r.warmCnt.toNat, ?_⟩
    rcases Nat.eq_zero_or_pos c.warmupPulses with zero | pos
    · obtain ⟨armed, count⟩ := atZero zero
      exact ⟨by rw [armed, zero]; rfl, by rw [count, zero]; rfl⟩
    · obtain ⟨unarmed, count⟩ | ⟨armed, count⟩ := positive pos
      · exact ⟨unarmed.trans (decide_eq_false (by omega)).symm, by omega⟩
      · exact ⟨armed.trans (decide_eq_true (by omega)).symm, by omega⟩
  · rintro ⟨pulses, armed, count⟩
    constructor
    · intro zero
      rw [zero, Nat.min_zero] at count
      exact ⟨armed.trans (decide_eq_true (by omega)), BitVec.eq_of_toNat_eq count⟩
    · intro _
      by_cases enough : c.warmupPulses ≤ pulses
      · exact .inr ⟨armed.trans (decide_eq_true enough), by omega⟩
      · exact .inl ⟨armed.trans (decide_eq_false enough), by omega⟩

/-- R185: a cycle counts its warm-up event. -/
theorem nextByR79_warmedBy (legal : c.legal = true) {r : Regs c} {pulses : Nat} (warmed : r.WarmedBy pulses)
    {w : Ciw c} (running : notReset w) :
    (r.nextByR79 (Inputs.ofCiw w)).WarmedBy (pulses + (warmupEvent r w).toNat) := by
  obtain ⟨-, -, -, -, -, -, -, -, -, fits⟩ := (legal_iff_ranges c).mp legal
  obtain ⟨armed, count⟩ := warmed
  have warmup := nextByR79_warmup (r := r) running
  rw [WarmedBy]
  cases event : warmupEvent r w
  case false =>
    rw [warmStep_of_kept _ (.inl event)] at warmup
    obtain ⟨sameArmed, sameCount⟩ := Prod.mk.inj warmup
    exact ⟨sameArmed.trans armed, sameCount ▸ count⟩
  case true =>
    rw [event] at warmup
    by_cases enough : c.warmupPulses ≤ pulses
    · rw [warmStep_of_kept _ (.inr (armed.trans (decide_eq_true enough)))] at warmup
      obtain ⟨sameArmed, sameCount⟩ := Prod.mk.inj warmup
      rw [sameArmed, sameCount, armed, Bool.toNat_true]
      exact ⟨decide_eq_decide.mpr (by omega), by omega⟩
    · have succ : (r.warmCnt + 1).toNat = pulses + 1 := by
        rw [toNat_add_one_of_lt (by omega)]
        omega
      rw [armed, decide_eq_false enough, warmStep_counts, succ] at warmup
      obtain ⟨nextArmed, nextCount⟩ := Prod.mk.inj warmup
      rw [nextArmed, nextCount, succ, Bool.toNat_true]
      exact ⟨decide_eq_decide.mpr (by omega), by omega⟩

/-- R186: a run counts its warm-up events. -/
theorem after_warmedBy (legal : c.legal = true) {r : Regs c} {pulses : Nat} (warmed : r.WarmedBy pulses)
    {ws : List (Ciw c)} (running : ∀ w ∈ ws, notReset w) :
    (r.after ws).WarmedBy (pulses + rises r.samples.warmup (ws.map fun w => (ciwLines w).warmup)) := by
  induction ws generalizing r pulses with
  | nil => exact warmed
  | cons w ws ih =>
    obtain ⟨first, rest⟩ := List.forall_mem_cons.mp running
    have later := ih (nextByR79_warmedBy legal warmed first) rest
    rw [Nat.add_assoc] at later
    exact (rises_cons Lines.warmup r first ws).symm ▸ later

end Regs

end

/-! ### The statements -/

/-- Settles O30: the run leaves the registers of R79, whose counter counts modulo the period. -/
theorem tickCountIsEventsModuloPeriod : Obligations.TickCountIsEventsModuloPeriod := by
  unfold Obligations.TickCountIsEventsModuloPeriod
  intro c r ws n x legal below running
  exact ⟨_, run_driven legal r ws n x, Regs.after_tickCnt_toNat legal below running⟩

/-- Settles O31: a report comes of a boundary tick, which leaves the counter at 0, and that is the number of tick events
modulo the period. -/
theorem reportsOnlyOnBoundaryTicks : Obligations.ReportsOnlyOnBoundaryTicks := by
  unfold Obligations.ReportsOnlyOnBoundaryTicks
  intro c ws w n x legal running
  have run := run_driven_of_ne_nil legal (Regs.reset c) n x (List.concat_ne_nil w ws)
  rw [List.length_append] at run
  refine ⟨_, run, fun report => ?_⟩
  obtain ⟨before, last⟩ := List.forall_mem_append.mp running
  have counted := Regs.after_tickCnt_toNat legal (Regs.reset_tickBelowPeriod legal) running
  rw [Regs.after_append] at report counted
  obtain ⟨tick, boundary⟩ := Regs.boundary_of_nextByR79_report report
  have restarted := Regs.nextByR79_tickCnt_of_boundary (last w (List.mem_singleton_self w)) tick boundary
  constructor
  · exact (rises_tick_concat (Regs.reset c) ws w before).trans (by rw [tick, Bool.toNat_true]; rfl)
  · have atZero : (((Regs.reset c).after ws).after [w]).tickCnt.toNat = 0 := congrArg BitVec.toNat restarted
    rw [Regs.reset_tickCnt_toNat, Nat.zero_add] at counted
    exact counted.symm.trans atZero

/-- Settles O32: two reports would take two periods of tick events, of which the run has one and a part. -/
theorem atMostOneReportPerPeriod : Obligations.AtMostOneReportPerPeriod := by
  unfold Obligations.AtMostOneReportPerPeriod
  intro c r ws n x legal below running
  have periods := period_mul_reports_le legal below ws n x running
  refine ⟨statesAfter_length legal r ws n x, periods, fun few => ?_⟩
  by_contra many
  have two := Nat.mul_le_mul_left c.pReport (Nat.lt_of_not_le many)
  omega

/-- Settles O33: each acknowledge is a pulse that a cycle writes with its event. -/
theorem everyRiseAcknowledgedOnce : Obligations.EveryRiseAcknowledgedOnce := by
  unfold Obligations.EveryRiseAcknowledgedOnce
  intro c r ws n x legal running
  exact ⟨statesAfter_length legal r ws n x,
    countP_pulse_eq_rises legal _ Lines.correct (fun _ _ _ _ first => Regs.nextByR79_ackC first) r ws n x running,
    countP_pulse_eq_rises legal _ Lines.wrong (fun _ _ _ _ first => Regs.nextByR79_ackW first) r ws n x running⟩

/-- Settles O34: up to the last cycle the flags and the interval are those of the event, and its tick is on the
boundary. -/
theorem lastEventIsReportedAtTheBoundary : Obligations.LastEventIsReportedAtTheBoundary := by
  unfold Obligations.LastEventIsReportedAtTheBoundary
  intro c r v w ws n x legal running event noCorrect noWrong period early
  have run := run_driven_of_ne_nil legal r n x (List.cons_ne_nil v (ws ++ [w]))
  rw [List.length_cons, List.length_append, Regs.after, Regs.after_append] at run
  refine ⟨_, run, ?_⟩
  obtain ⟨first, later⟩ := List.forall_mem_cons.mp running
  obtain ⟨middle, last⟩ := List.forall_mem_append.mp later
  have lastRunning := last w (List.mem_singleton_self w)
  rw [← List.cons_append] at period
  obtain ⟨tick, boundary⟩ :=
    Regs.boundary_of_period_filled legal (List.forall_mem_cons.mpr ⟨first, middle⟩) period early
  rw [Regs.after] at tick boundary
  rw [← Regs.nextByR79_samples (r := r) first, rises_concat Lines.correct _ ws w middle, Nat.add_eq_zero_iff,
    Bool.toNat_eq_zero] at noCorrect
  rw [← Regs.nextByR79_samples (r := r) first, rises_concat Lines.wrong _ ws w middle, Nat.add_eq_zero_iff,
    Bool.toNat_eq_zero] at noWrong
  obtain ⟨noCorrectBefore, noCorrectLast⟩ := noCorrect
  obtain ⟨noWrongBefore, noWrongLast⟩ := noWrong
  rw [rises_tick_cons r first, ← Nat.add_assoc] at early
  have counted := Regs.nextByR79_tickCnt_toNat_of_early (r := r) legal first (by omega)
  obtain ⟨flags, interval⟩ := Regs.after_keeps_flags legal middle noCorrectBefore noWrongBefore (by omega)
  have evaluation := Regs.evaluate_after_event first event flags interval
  refine ⟨?_, Regs.nextByR79_tickCnt_of_boundary lastRunning tick boundary, ?_⟩
  · rw [Regs.after, Regs.after, Regs.nextByR79_flags_of_no_event lastRunning noWrongLast noCorrectLast, tick,
      tickStep_boundary _ _ boundary, evaluation]
  · rw [Regs.after, Regs.after, Regs.nextByR79_report_of_boundary lastRunning tick boundary, evaluation]

/-- Settles O40: from reset, the run counts its warm-up events. -/
theorem startAfterWarmupPulses : Obligations.StartAfterWarmupPulses := by
  unfold Obligations.StartAfterWarmupPulses
  intro c ws n x legal running
  have warmed := Regs.after_warmedBy legal (Regs.reset_warmedBy c) running
  rw [Nat.zero_add] at warmed
  obtain ⟨armed, count⟩ := warmed
  exact ⟨_, run_driven legal (Regs.reset c) ws n x, armed, count⟩

end Sys2Proof.Machine

/-! Proofs about reset and the state between cycles (70_reset_and_hazards.md, 10_state.md): the first cycle after reset
(R241), the invariants R36 to R40, and the output ports (R42, R43). -/

namespace Sys2Proof.Machine

/-- R152, R153: one flag alone is reported. -/
theorem evaluate_report_of_differ {c : Config} {f : FlagPair} (iv : BitVec c.ivW) (differ : f.correct ≠ f.wrong) :
    (evaluate f iv).2 = ⟨true, 1, iv⟩ ∨ (evaluate f iv).2 = ⟨true, 2, 0⟩ := by
  obtain ⟨correct, wrong⟩ := f
  cases correct
  case false =>
    obtain rfl : wrong = true := Bool.eq_true_of_not_eq_false differ.symm
    exact .inr rfl
  case true =>
    obtain rfl : wrong = false := Bool.eq_false_of_not_eq_true differ.symm
    exact .inl rfl

/-! ### From the reset values (R240) -/

namespace Regs

section
variable {c : Config}

theorem reset_not_atBoundary (legal : c.legal = true) (notOne : c.pReport ≠ 1) : ¬atBoundary (reset c) := by
  have one := tickCnt_succ_toNat legal (reset_tickBelowPeriod legal)
  rw [reset_tickCnt_toNat] at one
  exact fun boundary => notOne (boundary.symm.trans one)

/-- R241: after reset every line at 1 is an event, as the samples are at 0. -/
theorem events_of_reset (v : Ciw c) :
    correctEvent (reset c) v = (ciwLines v).correct ∧ wrongEvent (reset c) v = (ciwLines v).wrong ∧
    tickEvent (reset c) v = (ciwLines v).tick ∧ warmupEvent (reset c) v = (ciwLines v).warmup :=
  ⟨Bool.and_true _, Bool.and_true _, Bool.and_true _, Bool.and_true _⟩

/-! ### The invariants (R36 to R40) -/

/-- R36: the boundary evaluation leaves at most one flag, if there was at most one. -/
theorem tickStep_flags_exclusive {te : Bool} {f : FlagPair} (iv : BitVec c.ivW) {t : BitVec c.tickW}
    (exclusive : ¬(f.correct = true ∧ f.wrong = true)) :
    ¬((tickStep c te f iv t).flags.correct = true ∧ (tickStep c te f iv t).flags.wrong = true) := by
  by_cases boundary : te = true ∧ (t + 1).toNat = c.pReport
  · obtain ⟨rfl, full⟩ := boundary
    rw [tickStep_boundary f iv full, evaluate_flags]
    simpa using exclusive
  · rwa [tickStep_flags_off_boundary f iv boundary]

theorem nextByR79_flagsExclusive {r : Regs c} (exclusive : r.flagsExclusive) {w : Ciw c} (running : notReset w) :
    (r.nextByR79 (Inputs.ofCiw w)).flagsExclusive := by
  rw [flagsExclusive, nextByR79_flags running]
  split
  case isTrue => simp
  case isFalse =>
    split
    case isTrue => simp
    case isFalse => exact tickStep_flags_exclusive _ exclusive

theorem nextByR79_warmupConsistent (legal : c.legal = true) {r : Regs c} (consistent : r.warmupConsistent) {w : Ciw c}
    (running : notReset w) : (r.nextByR79 (Inputs.ofCiw w)).warmupConsistent := by
  obtain ⟨pulses, warmed⟩ := warmupConsistent_iff_warmedBy.mp consistent
  exact warmupConsistent_iff_warmedBy.mpr ⟨_, nextByR79_warmedBy legal warmed running⟩

theorem nextByR79_patternValid {r : Regs c} {w : Ciw c} (running : notReset w) :
    (r.nextByR79 (Inputs.ofCiw w)).patternValid := by
  rw [patternValid, nextByR79_pattern running]
  exact rom_subst _

/-- R155: the three report triples that a cycle can leave. -/
theorem nextByR79_report_cases (r : Regs c) (w : Ciw c) :
    (r.nextByR79 (Inputs.ofCiw w)).report = ⟨false, 0, 0⟩ ∨
    (r.nextByR79 (Inputs.ofCiw w)).report = ⟨true, 1, r.intervalNs⟩ ∨
    (r.nextByR79 (Inputs.ofCiw w)).report = ⟨true, 2, 0⟩ := by
  by_cases reports : notReset w ∧ tickEvent r w = true ∧ atBoundary r ∧ r.flags.correct ≠ r.flags.wrong
  · obtain ⟨running, tick, boundary, differ⟩ := reports
    rw [nextByR79_report_of_boundary running tick boundary]
    exact .inr (evaluate_report_of_differ _ differ)
  · exact .inl (nextByR79_report_of_no_report reports)

/-- R40 holds of each of them. -/
theorem reportConsistent_of_cases {r : Regs c} (iv : BitVec c.ivW)
    (report : r.report = ⟨false, 0, 0⟩ ∨ r.report = ⟨true, 1, iv⟩ ∨ r.report = ⟨true, 2, 0⟩) : r.reportConsistent := by
  rw [reportConsistent]
  obtain low | interval | wrong := report
  · simp [low]
  · simp [interval]
  · simp [wrong]

theorem reset_inv (legal : c.legal = true) : (reset c).Inv :=
  ⟨fun ⟨correct, _⟩ => Bool.false_ne_true correct, reset_tickBelowPeriod legal,
    warmupConsistent_iff_warmedBy.mpr ⟨0, reset_warmedBy c⟩, .inl rfl, reportConsistent_of_cases 0 (.inl rfl)⟩

/-- R36 to R40: a cycle keeps the invariants. -/
theorem nextByR79_inv (legal : c.legal = true) {r : Regs c} (inv : r.Inv) (w : Ciw c) :
    (r.nextByR79 (Inputs.ofCiw w)).Inv := by
  obtain ⟨exclusive, below, consistent, -, -⟩ := inv
  cases rst : (Inputs.ofCiw w).rst
  case true => rw [nextByR79_of_reset r rst]; exact reset_inv legal
  case false =>
    exact ⟨nextByR79_flagsExclusive exclusive rst, nextByR79_tickBelowPeriod legal below rst,
      nextByR79_warmupConsistent legal consistent rst, nextByR79_patternValid rst,
      reportConsistent_of_cases _ (nextByR79_report_cases r w)⟩

end

end Regs

/-! ### The statements -/

/-- Settles O43: the step gives the registers of R79, on a queued word as on a free one, and these keep the
invariants. -/
theorem invariantKeptByEveryStep : Obligations.InvariantKeptByEveryStep := by
  unfold Obligations.InvariantKeptByEveryStep
  rintro ⟨c, r, pending, n, x⟩ ⟨legal, inv, -⟩
  cases pending with
  | nil =>
    exact ⟨_, undrivenCycleReadsAFreeWord c r n x legal, ⟨legal, Regs.nextByR79_inv legal inv _, rfl⟩, rfl⟩
  | cons w ws =>
    exact ⟨_, stepIsTheFunctionOfR79 c r w ws n x legal, ⟨legal, Regs.nextByR79_inv legal inv w, rfl⟩, rfl⟩

/-- Settles O42: the reset values have the invariants, and the default configuration is legal. -/
theorem invariantAtReset : Obligations.InvariantAtReset := by
  unfold Obligations.InvariantAtReset
  have forAll (c : Config) (legal : c.legal = true) : (State.resetFor c).Inv := ⟨legal, Regs.reset_inv legal, rfl⟩
  exact ⟨forAll, forAll Config.default (by decide)⟩

/-- Settles O15: the second cycle runs from the reset values, where every sample is at 0. -/
theorem eventsInAResetCycleAreNotRemembered : Obligations.EventsInAResetCycleAreNotRemembered := by
  unfold Obligations.EventsInAResetCycleAreNotRemembered
  intro c r w v ws n x legal rst running
  have first := run_succ_of_step core 1 (step_of_reset r (v :: ws) n x legal rst)
  have second := run_succ_of_step core 0 (stepIsTheFunctionOfR79 c (Regs.reset c) v ws n ⟨0, 0⟩ legal)
  have registers := Regs.nextByR79_warmup (r := Regs.reset c) running
  obtain ⟨correctEq, wrongEq, tickEq, warmupEq⟩ := Regs.events_of_reset v
  refine ⟨_, first.trans second, rfl, (Regs.nextByR79_ackC running).trans correctEq,
    (Regs.nextByR79_ackW running).trans wrongEq, fun tick notOne => ?_, fun noTick => ?_,
    fun warmup notZero => ?_, fun noWarmup => ?_⟩
  · rw [Regs.nextByR79_tickCnt_of_tick_below running (tickEq.trans tick) (Regs.reset_not_atBoundary legal notOne)]
    exact BitVec.zero_add 1
  · exact Regs.nextByR79_tickCnt_of_no_tick running (tickEq.trans noTick)
  · have unarmed : (Regs.reset c).armed = false := decide_eq_false notZero
    rw [warmupEq, warmup, unarmed, warmStep_counts] at registers
    exact (Prod.mk.inj registers).2.trans (BitVec.zero_add 1)
  · rw [warmupEq, noWarmup, warmStep_idle] at registers
    exact (Prod.mk.inj registers).2

/-- Settles O35: ROM_READ puts the entry on the wires, and the entries are those of R100. -/
theorem romReadGivesTheEntry : Obligations.RomReadGivesTheEntry := by
  unfold Obligations.RomReadGivesTheEntry
  intro c r ws n x a
  have entries : ∀ a : HallCode,
      (a = 0 → rom a = 0x00) ∧ (a = 1 → rom a = 0x19) ∧ (a = 2 → rom a = 0x32) ∧ (a = 3 → rom a = 0x13) ∧
      (a = 4 → rom a = 0x2C) ∧ (a = 5 → rom a = 0x0D) ∧ (a = 6 → rom a = 0x26) ∧ (a = 7 → rom a = 0x00) := by decide
  exact ⟨rom a, rfl, entries a⟩

/-- Settles O36: by looking at the eight entries. -/
theorem commutationSequence : Obligations.CommutationSequence := by
  unfold Obligations.CommutationSequence
  exact ⟨by decide, by decide, by decide, by decide, by decide⟩

/-- Settles O44: each port is defined as its register. -/
theorem outputPortsShowRegisters : Obligations.OutputPortsShowRegisters := by
  unfold Obligations.OutputPortsShowRegisters
  exact fun c r => ⟨rfl, rfl, rfl, rfl, rfl, rfl, rfl, rfl, rfl, rfl, rfl, rfl⟩

/-- Settles O45: no port reads `WARM_CNT` or a sample. -/
theorem hiddenStateDrivesNoOutput : Obligations.HiddenStateDrivesNoOutput := by
  unfold Obligations.HiddenStateDrivesNoOutput
  exact fun c r m l => rfl

end Sys2Proof.Machine

/-! Proofs about fixed words and traces (30_encoding.md R72, R84, R85). -/

namespace Sys2Proof.Machine

theorem length_repeatLines (block : List TraceLine) (n : Nat) :
    (repeatLines block n).length = block.length * n := by
  induction n with
  | zero => rfl
  | succ n ih => rw [repeatLines, List.length_append, ih, Nat.mul_succ, Nat.add_comm]

theorem eq_of_mem_repeatLines_singleton {l m : TraceLine} {n : Nat} (h : m ∈ repeatLines [l] n) : m = l := by
  induction n with
  | zero => exact absurd h List.not_mem_nil
  | succ n ih =>
    rcases List.mem_cons.mp h with head | tail
    · exact head
    · exact ih tail

/-- R85: a pulse returns its line to 0, so that each repetition is one more event. -/
theorem rises_repeatLines_pulse (line : TraceLine → Bool) {up down : TraceLine} (high : line up = true)
    (low : line down = false) (n : Nat) : rises false ((repeatLines [up, down] n).map line) = n := by
  induction n with
  | zero => rfl
  | succ n ih =>
    have first : rises false ((repeatLines [up, down] (n + 1)).map line) =
        1 + (0 + rises false ((repeatLines [up, down] n).map line)) := by
      simp [repeatLines, rises, high, low]
    rw [first, ih, Nat.zero_add, Nat.add_comm]

/-- Settles O47: the expansions repeat a pulse of their line. -/
theorem pseudoInstructionsGiveTheirEvents : Obligations.PseudoInstructionsGiveTheirEvents := by
  unfold Obligations.PseudoInstructionsGiveTheirEvents
  intro k n h
  refine ⟨rfl, rfl, length_repeatLines _ n, length_repeatLines _ n, (length_repeatLines _ n).trans (Nat.one_mul n), rfl,
    rfl, rfl, fun l => eq_of_mem_repeatLines_singleton, rises_repeatLines_pulse (fun l => l.lines.tick) rfl rfl n,
    rises_repeatLines_pulse (fun l => l.lines.warmup) rfl rfl n⟩

/-- Settles O1: by running the decoder on the words. -/
theorem specWordsDecode : Obligations.SpecWordsDecode := by
  unfold Obligations.SpecWordsDecode
  decide

/-- Settles O46: by running the reader and the assembler on the line. -/
theorem traceExample : Obligations.TraceExample := by
  unfold Obligations.TraceExample
  decide

end Sys2Proof.Machine
